-- ==== Sys2Proof/Word.lean ====
section
/-!
DEFINITION. The word types of the block (00_scope.md R6, R8): all values are unsigned bit vectors.
-/

namespace Sys2Proof

/-- A byte, `u8` (R8). -/
abbrev Byte := BitVec 8

/-- A 32-bit command word (30_encoding.md R70). -/
abbrev CommandWord := BitVec 32

/-- The eight payload bytes of a message or frame, index 0 to 7 (R8, R10). -/
abbrev Payload := Vector Byte 8

/-- Eight zero bytes. -/
abbrev Payload.zero : Payload := Vector.replicate 8 0

/-- The text buffer's storage, index 0 to 34 (10_state.md R25; `TXT_CAP` of R6 is 35). -/
abbrev TextBuf := Vector Byte 35

/-- A text buffer of zero bytes. -/
abbrev TextBuf.zero : TextBuf := Vector.replicate 35 0

end Sys2Proof
end

