-- ==== Sys2Proof/Syntax.lean ====
section
/-!
DEFINITION. The operations of the block and the protocol frames of the opcode table: one constructor of
`Instr` per row of spec/opcode_table.json, its operands at the width the row gives them.
-/

namespace Sys2Proof

/-- The name of a message register: the one-bit selectors `a` and `b` of a command word (10_state.md R11). -/
inductive MReg where
  | m0
  | m1
deriving DecidableEq, Repr

/-- A frame at the transport boundary (30_encoding.md R60). -/
structure Frame where
  /-- the 29-bit identifier -/
  id : BitVec 29
  /-- the opaque extended-frame flag -/
  ext : Bool
  /-- the number of payload bytes; 0 to 8 are legal (R111) -/
  dlen : BitVec 4
  /-- the eight positions of the payload port; those below `dlen` are valid -/
  pay : Payload
deriving DecidableEq, Repr

/-- What a frame carries besides its command code: the other fields of its identifier (the ID29 rows of the
opcode table, 30_encoding.md R61) and what crosses the boundary with it (R60). -/
structure BusArgs where
  /-- identifier bit 28, which no field uses (R63) -/
  bit28 : Bool
  /-- identifier bits 27:25 -/
  prio : BitVec 3
  /-- identifier bit 16: a response -/
  resp : Bool
  /-- identifier bits 15:0: the sender -/
  hash : BitVec 16
  /-- the extended-frame flag -/
  ext : Bool
  /-- the payload length -/
  dlen : BitVec 4
  /-- the payload port -/
  pay : Payload
deriving DecidableEq, Repr

/-- One constructor per row of spec/opcode_table.json. The first nineteen are the command words of
30_encoding.md R74; the eight `bus…` constructors are the protocol command codes of R77, frames of other
participants that reach the transport (notes/assumptions/1.md). -/
inductive Instr where
  | nop
  | clear (a : MReg)
  | ldf (a : MReg) (sel : BitVec 5) (imm : BitVec 16)
  | rdf (a : MReg) (sel : BitVec 5)
  | send (a : MReg)
  | recv (a : MReg)
  | exch (a b : MReg)
  | negotiate
  | activate
  | sethash (imm : BitVec 16)
  | settmo (imm : BitVec 16)
  | setcfg (cfg : BitVec 3)
  | rdsr (sel : BitVec 5)
  | clrerr (mask : BitVec 6)
  | txenc (a : MReg)
  | txdec (a : MReg)
  | ldt (idx : BitVec 6) (ch : Byte)
  | rdt (idx : BitVec 6)
  | settl (n : BitVec 6)
  | busSystem (g : BusArgs)
  | busSpeed (g : BusArgs)
  | busDirection (g : BusArgs)
  | busFunction (g : BusArgs)
  | busReadConfig (g : BusArgs)
  | busWriteConfig (g : BusArgs)
  | busAccessory (g : BusArgs)
  | busPing (g : BusArgs)
deriving DecidableEq, Repr

end Sys2Proof
end

