-- ==== Sys2Proof/WellFormed.lean ====
section
/-!
DEFINITION. Which instructions are well formed. The operands of a command word have exactly the width of
their field (30_encoding.md R74), so every command is; an operand value out of range is a `BadArgument` when
the operation runs (60_exceptions.md R224), not an ill-formed word. A frame is well formed when it keeps the
transport's contract `dlen <= 8` (41_frame_io.md R111).
-/

namespace Sys2Proof

/-- The transport's contract on a frame: `dlen <= 8` (R60, R111). -/
abbrev BusArgs.WellFormed (g : BusArgs) : Prop := g.dlen ≤ 8

/-- Well-formed instructions. -/
abbrev Instr.WellFormed : Instr → Prop
  | .nop => True
  | .clear _ => True
  | .ldf _ _ _ => True
  | .rdf _ _ => True
  | .send _ => True
  | .recv _ => True
  | .exch _ _ => True
  | .negotiate => True
  | .activate => True
  | .sethash _ => True
  | .settmo _ => True
  | .setcfg _ => True
  | .rdsr _ => True
  | .clrerr _ => True
  | .txenc _ => True
  | .txdec _ => True
  | .ldt _ _ => True
  | .rdt _ => True
  | .settl _ => True
  | .busSystem g => g.WellFormed
  | .busSpeed g => g.WellFormed
  | .busDirection g => g.WellFormed
  | .busFunction g => g.WellFormed
  | .busReadConfig g => g.WellFormed
  | .busWriteConfig g => g.WellFormed
  | .busAccessory g => g.WellFormed
  | .busPing g => g.WellFormed

end Sys2Proof
end

