-- ==== Sys2Proof/Decode.lean ====
section
/-!
DEFINITION. The encodings of 30_encoding.md: the 29-bit identifier (R61, R62), the command word and its
operation codes (R70, R74), the protocol command codes (R77); the decoder and, after it, the encoder.
-/

namespace Sys2Proof

/-! ### The identifier -/

/-- `PackId` (R61). -/
def packId (prio : BitVec 3) (cmd : BitVec 8) (resp : Bool) (hash : BitVec 16) : BitVec 29 :=
  (prio.zeroExtend 29 <<< 25) ||| (cmd.zeroExtend 29 <<< 17) |||
    ((BitVec.ofBool resp).zeroExtend 29 <<< 16) ||| hash.zeroExtend 29

/-- `id[27:25]` (R62). -/
def idPrio (id : BitVec 29) : BitVec 3 := id.extractLsb' 25 3

/-- `id[24:17]` (R62). -/
def idCmd (id : BitVec 29) : BitVec 8 := id.extractLsb' 17 8

/-- `id[16]` (R62). -/
def idResp (id : BitVec 29) : Bool := id.getLsbD 16

/-- `id[15:0]` (R62). -/
def idHash (id : BitVec 29) : BitVec 16 := id.extractLsb' 0 16

/-- `id[28]`, which no field uses (R63). -/
def idBit28 (id : BitVec 29) : Bool := id.getLsbD 28

/-- An identifier with bit 28 as given; the block itself only sends it clear (R63). -/
def packIdWith (bit28 : Bool) (prio : BitVec 3) (cmd : BitVec 8) (resp : Bool) (hash : BitVec 16) : BitVec 29 :=
  ((BitVec.ofBool bit28).zeroExtend 29 <<< 28) ||| packId prio cmd resp hash

/-! ### The payload port -/

/-- Byte `k` of the 64-bit payload port is bits `8k+7 : 8k` (20_memory.md R45). -/
def payloadOfLanes (w : BitVec 64) : Payload := Vector.ofFn fun k => w.extractLsb' (8 * k.val) 8

/-! ### Why a decoder gives no instruction -/

/-- Why a word or frame stands for no row of the opcode table. -/
inductive DecodeError where
  /-- A command word that matches no row (R75): the block takes it and raises `IllegalCommand`. -/
  | illegalCommand
  /-- A frame whose command code is in no row of R77: it is carried unchanged (R76, R78). -/
  | unlistedCode
deriving DecidableEq, Repr

/-! ### Command words -/

/-- The selector named by a bit (10_state.md R11). -/
def mregOfBit (b : Bool) : MReg := if b then .m1 else .m0

/-- Bit 26 of a command word: `a` (R70). -/
def cwA (w : CommandWord) : MReg := mregOfBit (w.getLsbD 26)

/-- Bit 25: `b`. -/
def cwB (w : CommandWord) : MReg := mregOfBit (w.getLsbD 25)

/-- Bits 24:20: `sel`. -/
def cwSel (w : CommandWord) : BitVec 5 := w.extractLsb' 20 5

/-- Bits 15:0: `imm`. -/
def cwImm (w : CommandWord) : BitVec 16 := w.extractLsb' 0 16

/-- Bits 2:0: the operand of `SETCFG` (45_system_ops.md R186). -/
def cwCfg (w : CommandWord) : BitVec 3 := w.extractLsb' 0 3

/-- Bits 5:0: the mask of `CLRERR` (R188) and the length of `SETTL` (44_text_codec.md R170). -/
def cwLow6 (w : CommandWord) : BitVec 6 := w.extractLsb' 0 6

/-- Bits 13:8: the text index of `LDT` and `RDT` (R65). -/
def cwIdx (w : CommandWord) : BitVec 6 := w.extractLsb' 8 6

/-- Bits 7:0: the character of `LDT` (R65). -/
def cwCh (w : CommandWord) : Byte := w.extractLsb' 0 8

/-- One row of R74: a word `w` selects it when `w & mask = pattern`. -/
structure CwRow where
  /-- the row's `mask` -/
  mask : CommandWord
  /-- the row's `match` -/
  pattern : CommandWord
  /-- the operation with the operands the word holds -/
  build : CommandWord → Instr

/-- The table of R74, row by row. -/
def cwRows : List CwRow :=
  [⟨0xFFFFFFFF, 0x00000000, fun _ => .nop⟩,
   ⟨0xFBFFFFFF, 0x08000000, fun w => .clear (cwA w)⟩,
   ⟨0xFA0F0000, 0x10000000, fun w => .ldf (cwA w) (cwSel w) (cwImm w)⟩,
   ⟨0xFA0FFFFF, 0x18000000, fun w => .rdf (cwA w) (cwSel w)⟩,
   ⟨0xFBFFFFFF, 0x20000000, fun w => .send (cwA w)⟩,
   ⟨0xFBFFFFFF, 0x28000000, fun w => .recv (cwA w)⟩,
   ⟨0xF9FFFFFF, 0x30000000, fun w => .exch (cwA w) (cwB w)⟩,
   ⟨0xFFFFFFFF, 0x38000000, fun _ => .negotiate⟩,
   ⟨0xFFFFFFFF, 0x40000000, fun _ => .activate⟩,
   ⟨0xFFFF0000, 0x48000000, fun w => .sethash (cwImm w)⟩,
   ⟨0xFFFF0000, 0x50000000, fun w => .settmo (cwImm w)⟩,
   ⟨0xFFFFFFF8, 0x58000000, fun w => .setcfg (cwCfg w)⟩,
   ⟨0xFE0FFFFF, 0x60000000, fun w => .rdsr (cwSel w)⟩,
   ⟨0xFFFFFFC0, 0x68000000, fun w => .clrerr (cwLow6 w)⟩,
   ⟨0xFBFFFFFF, 0x80000000, fun w => .txenc (cwA w)⟩,
   ⟨0xFBFFFFFF, 0x88000000, fun w => .txdec (cwA w)⟩,
   ⟨0xFFFFC000, 0x90000000, fun w => .ldt (cwIdx w) (cwCh w)⟩,
   ⟨0xFFFFC0FF, 0x98000000, fun w => .rdt (cwIdx w)⟩,
   ⟨0xFFFFFFC0, 0xA0000000, fun w => .settl (cwLow6 w)⟩]

/-- The operation of a command word: the row it matches, or illegal (R74, R75). -/
def decodeCommand (w : CommandWord) : Except DecodeError Instr :=
  match cwRows.find? fun r => w &&& r.mask == r.pattern with
  | some r => .ok (r.build w)
  | none => .error .illegalCommand

/-! ### Protocol command codes -/

/-- What a frame holds besides its command code. -/
def busArgsOf (f : Frame) : BusArgs :=
  { bit28 := idBit28 f.id, prio := idPrio f.id, resp := idResp f.id, hash := idHash f.id,
    ext := f.ext, dlen := f.dlen, pay := f.pay }

/-- The table of R77: the code in `id[24:17]` selects the row, whatever the other bits are. -/
def decodeBus (f : Frame) : Except DecodeError Instr :=
  match (idCmd f.id).toNat with
  | 0x00 => .ok (.busSystem (busArgsOf f))
  | 0x04 => .ok (.busSpeed (busArgsOf f))
  | 0x05 => .ok (.busDirection (busArgsOf f))
  | 0x06 => .ok (.busFunction (busArgsOf f))
  | 0x07 => .ok (.busReadConfig (busArgsOf f))
  | 0x08 => .ok (.busWriteConfig (busArgsOf f))
  | 0x0B => .ok (.busAccessory (busArgsOf f))
  | 0x18 => .ok (.busPing (busArgsOf f))
  | _ => .error .unlistedCode

/-! ### The two places an instruction comes from -/

/-- What is decoded: a command word at the host's port (R70), or a frame at the transport (R60). -/
inductive Wire where
  | command (w : CommandWord)
  | frame (f : Frame)
deriving DecidableEq, Repr

/-- The decoder, total on every command word and every frame. -/
def decode : Wire → Except DecodeError Instr
  | .command w => decodeCommand w
  | .frame f => decodeBus f

/-! ### The encoder -/

/-- The selector's bit. -/
def mregBit : MReg → BitVec 1
  | .m0 => 0
  | .m1 => 1

/-- The command word of R70: `ooooo a b sssss 0000 iiiiiiiiiiiiiiii`. -/
def cwWord (op : BitVec 5) (a b : BitVec 1) (sel : BitVec 5) (imm : BitVec 16) : CommandWord :=
  op ++ a ++ b ++ sel ++ (0 : BitVec 4) ++ imm

/-- The frame that carries command code `c` and the other fields `g` (R60, R61, R77). -/
def busFrame (c : Byte) (g : BusArgs) : Frame :=
  { id := packIdWith g.bit28 g.prio c g.resp g.hash, ext := g.ext, dlen := g.dlen, pay := g.pay }

/-- The encoder: the command word by the `op` and fields of R74, the frame by the code of R77. -/
def encode : Instr → Wire
  | .nop => .command (cwWord 0x00 0 0 0 0)
  | .clear a => .command (cwWord 0x01 (mregBit a) 0 0 0)
  | .ldf a sel imm => .command (cwWord 0x02 (mregBit a) 0 sel imm)
  | .rdf a sel => .command (cwWord 0x03 (mregBit a) 0 sel 0)
  | .send a => .command (cwWord 0x04 (mregBit a) 0 0 0)
  | .recv a => .command (cwWord 0x05 (mregBit a) 0 0 0)
  | .exch a b => .command (cwWord 0x06 (mregBit a) (mregBit b) 0 0)
  | .negotiate => .command (cwWord 0x07 0 0 0 0)
  | .activate => .command (cwWord 0x08 0 0 0 0)
  | .sethash imm => .command (cwWord 0x09 0 0 0 imm)
  | .settmo imm => .command (cwWord 0x0A 0 0 0 imm)
  | .setcfg cfg => .command (cwWord 0x0B 0 0 0 (cfg.zeroExtend 16))
  | .rdsr sel => .command (cwWord 0x0C 0 0 sel 0)
  | .clrerr mask => .command (cwWord 0x0D 0 0 0 (mask.zeroExtend 16))
  | .txenc a => .command (cwWord 0x10 (mregBit a) 0 0 0)
  | .txdec a => .command (cwWord 0x11 (mregBit a) 0 0 0)
  | .ldt idx ch => .command (cwWord 0x12 0 0 0 ((0 : BitVec 2) ++ idx ++ ch))
  | .rdt idx => .command (cwWord 0x13 0 0 0 ((0 : BitVec 2) ++ idx ++ (0 : Byte)))
  | .settl n => .command (cwWord 0x14 0 0 0 (n.zeroExtend 16))
  | .busSystem g => .frame (busFrame 0x00 g)
  | .busSpeed g => .frame (busFrame 0x04 g)
  | .busDirection g => .frame (busFrame 0x05 g)
  | .busFunction g => .frame (busFrame 0x06 g)
  | .busReadConfig g => .frame (busFrame 0x07 g)
  | .busWriteConfig g => .frame (busFrame 0x08 g)
  | .busAccessory g => .frame (busFrame 0x0B g)
  | .busPing g => .frame (busFrame 0x18 g)

/-! ### The opcode table's own numbering -/

/-- The frame whose bits are `w`: the identifier in bits 28:0 (bits 31:29 unused), then one byte with `dlen`
in bits 35:32 and `ext` in bit 39, then the payload port in bits 103:40 with the lanes of R45
(notes/assumptions/9.md). -/
def frameOfBits (w : Nat) : Frame :=
  { id := BitVec.ofNat 29 w, ext := w.testBit 39, dlen := BitVec.ofNat 4 (w >>> 32),
    pay := payloadOfLanes (BitVec.ofNat 64 (w >>> 40)) }

/-- What the bits of a table row are given to: the command port where a command row matches, else the
transport where the bits can be a frame of a listed code (notes/assumptions/8.md). A word that is neither goes to
the command port, which finds it illegal. -/
def wireOfBits (nbits w : Nat) : Wire :=
  let c := Wire.command (BitVec.ofNat 32 w)
  let f := Wire.frame (frameOfBits w)
  match decode c with
  | .ok _ => if nbits = 32 then c else f
  | .error _ =>
    match decode f with
    | .ok _ => if 0x20000000 ≤ w % 0x100000000 then c else f
    | .error _ => c

/-- The instruction the decoder reads from a row of the opcode table whose bits are `w`. -/
def decodeTableWord (nbits w : Nat) : Option Instr :=
  match decode (wireOfBits nbits w) with
  | .ok i => some i
  | .error _ => none

end Sys2Proof
end

