-- ==== Sys2Proof/Config.lean ====
section
/-!
DEFINITION. What the spec leaves open: its parameters without a value (00_scope.md R7) and the answers of the
agents outside the block (R5). Each is an opaque constant without a body: no proof can see a value of it.
-/

namespace Sys2Proof.Config

/-- `HASH_AND`, the AND-mask of the candidate draw (R7). -/
opaque hashAnd : BitVec 16

/-- Which non-zero pattern `HASH_OR` is: R7 states `HASH_OR != 0`, so the free constant ranges over the
65535 non-zero patterns and nothing else. -/
opaque hashOrIndex : Fin 65535

/-- `HASH_OR`, the OR-pattern of the candidate draw: any non-zero value (R7, 43_negotiation.md R142). -/
def hashOr : BitVec 16 := BitVec.ofNat 16 (hashOrIndex.val + 1)

/-- `SETTLE_MS` in the 31 bits that R7's constraint `SETTLE_MS < 2^31` leaves it. -/
opaque settleBits : BitVec 31

/-- `SETTLE_MS`, the settle interval in milliseconds (R7, 43_negotiation.md R144). -/
def settleMs : BitVec 32 := settleBits.zeroExtend 32

/-- `TIMEOUT_RESET`, the reset value of `TIMEOUT` (R7, 10_state.md R15). -/
opaque timeoutReset : BitVec 16

/-- `TURNOUT_POWER`, the fixed power level of the turnout wrapper, host side only (R7, 46_command_layouts.md
R210). -/
opaque turnoutPower : Byte

/-- `TURNOUT`'s default hold duration in milliseconds, host side only (R7, R210). -/
opaque turnoutHold : Nat

/-- The six decoder families of the address convention (20_memory.md R41). -/
inductive DecoderFamily where
  | classic
  | newFormat
  | wireless
  | dcc
  | accessoryFirst
  | accessorySecond
deriving DecidableEq, Repr

/-- The six families. -/
def decoderFamilies : List DecoderFamily := [.classic, .newFormat, .wireless, .dcc, .accessoryFirst, .accessorySecond]

/-- The place of a family in the list of R41. -/
def DecoderFamily.index : DecoderFamily → Nat
  | .classic => 0
  | .newFormat => 1
  | .wireless => 2
  | .dcc => 3
  | .accessoryFirst => 4
  | .accessorySecond => 5

/-- `a` is in the range of `n` addresses from `base` on, at 16 bits. -/
def inRange (base : BitVec 16) (n : Nat) (a : BitVec 16) : Bool := (a - base).toNat < n

/-- Neither range begins inside the other: two ranges that are not empty share no address. -/
def rangesApart (b₁ : BitVec 16) (n₁ : Nat) (b₂ : BitVec 16) (n₂ : Nat) : Bool :=
  n₁ ≤ (b₂ - b₁).toNat && n₂ ≤ (b₁ - b₂).toNat

/-- The ranges of any two families share no address. -/
def disjointRanges (base : DecoderFamily → BitVec 16) (span : DecoderFamily → Nat) : Bool :=
  decoderFamilies.all fun f => decoderFamilies.all fun g => f == g || rangesApart (base f) (span f) (base g) (span g)

/-- Free bases, before the constraint of R7. -/
opaque decoderBaseFree : DecoderFamily → BitVec 16

/-- Free range lengths less one, before the constraint of R7. -/
opaque decoderSpanFree : DecoderFamily → Fin 65536

/-- The free bases and lengths satisfy the constraint of R7. -/
def decoderLayoutLegal : Bool := disjointRanges decoderBaseFree fun f => (decoderSpanFree f).val + 1

/-- The protocol base constant of a decoder family (R7, 20_memory.md R41): six open parameters, host side only,
free under the constraint `disjoint ranges`. Every layout with disjoint ranges is one; where the free constants
are none, six single addresses stand for it (notes/assumptions/26.md). -/
def decoderBase (f : DecoderFamily) : BitVec 16 :=
  if decoderLayoutLegal then decoderBaseFree f else BitVec.ofNat 16 f.index

/-- How many addresses the range of a family has, at least one (R41; the source gives no length). -/
def decoderSpan (f : DecoderFamily) : Nat := if decoderLayoutLegal then (decoderSpanFree f).val + 1 else 1

/-- The transport's answer to the `TxTrySend` that is draw number `n` (41_frame_io.md R110: under no law). -/
opaque txAnswer : Nat → Bool

/-- The transport's answer to the `RxTryReceive` that is draw number `n` (R111; 20_memory.md R54: an
arbitrary sequence). -/
opaque rxAnswer : Nat → Option Frame

/-- By how many milliseconds the clock has gone forward when the `Now()` that is draw number `n` reads it
(60_exceptions.md R240: it may stay the same or jump). -/
opaque clockJump : Nat → BitVec 32

/-- The random source's value for the `Rnd16()` that is draw number `n` (43_negotiation.md R141). -/
opaque rnd : Nat → BitVec 16

end Sys2Proof.Config
end

