-- ==== Sys2Proof/Machine/State.lean ====
section
/-!
DEFINITION. The state of the block (10_state.md), beside it the environment the block talks to, and the value
of both after reset. Plain data throughout.
-/

namespace Sys2Proof.Machine

/-- A message (10_state.md R10): 96 bits. -/
structure Message where
  /-- arbitration priority -/
  prio : BitVec 3
  /-- command code -/
  cmd : BitVec 8
  /-- an answer to a request with the same command code -/
  resp : Bool
  /-- identity of the sender -/
  hash : BitVec 16
  /-- number of valid payload bytes; 0 to 8 are legal -/
  len : BitVec 4
  /-- the payload; bytes at `len` and beyond are pad bytes (R13) -/
  data : Payload
deriving DecidableEq, Repr

/-- The cleared message: every field zero (40_message_ops.md R91). -/
def Message.cleared : Message :=
  { prio := 0, cmd := 0, resp := false, hash := 0, len := 0, data := Payload.zero }

/-- `PHASE`, the sequencer state (10_state.md R20). The unused code 6 is no value of the type
(notes/assumptions/14.md). -/
inductive Phase where
  /-- no operation in progress -/
  | idle
  /-- `EXCH`: polling for the matching response -/
  | exPoll
  /-- arbiter: draw a candidate -/
  | ngDraw
  /-- arbiter: send the ping -/
  | ngSend
  /-- arbiter: wait the settle interval -/
  | ngSettle
  /-- arbiter: drain and decide -/
  | ngDrain
  /-- stopped; only reset leaves -/
  | halted
deriving DecidableEq, Repr

/-- A response to the host (30_encoding.md R73). -/
structure Response where
  /-- the boolean the operation returns -/
  ok : Bool
  /-- the cause code of 60_exceptions.md R220 -/
  err : BitVec 3
  /-- the result value -/
  val : BitVec 32
deriving DecidableEq, Repr

/-- A frame offered to the transport, and whether it was accepted (41_frame_io.md R110). -/
structure Offer where
  /-- the frame the block offered -/
  frame : Frame
  /-- the transport's answer -/
  accepted : Bool
deriving DecidableEq, Repr

/-- A step of an agent outside the block (00_scope.md R5); it touches no register. -/
inductive AgentMove where
  /-- the host presents one more command word; it waits behind those it presented before (30_encoding.md R72) -/
  | hostPresents (w : CommandWord)
  /-- the host takes the oldest response that waits for it; with none waiting nothing happens (R73) -/
  | hostTakes
  /-- the transport settles how it will answer an offer to come (41_frame_io.md R110) -/
  | transportWillAnswer (acc : Bool)
  /-- the transport settles that a poll to come finds no frame (R111) -/
  | transportWillBeEmpty
  /-- the clock advances (60_exceptions.md R240) -/
  | clockAdvances (ms : BitVec 32)
  /-- the random source settles a value to come (43_negotiation.md R141) -/
  | randomSettles (v : BitVec 16)
deriving DecidableEq, Repr

/-- Whose turn it is (00_scope.md R5; notes/assumptions/2.md). -/
inductive Turn where
  /-- the engine performs one micro-step -/
  | engine
  /-- the reset input `rst` is asserted (70_reset_and_hazards.md R250) -/
  | reset
  /-- the transport's queue content changes by itself: a frame of another participant reaches it -/
  | bus (f : Frame)
  /-- host, transport, clock or random source make a step of their own -/
  | outside (m : AgentMove)
deriving DecidableEq, Repr

/-- The agents outside the block (00_scope.md R5), which the spec does not count as state of the block
(10_state.md R31): the MODEL's own fields. -/
structure Env where
  /-- who moves next; when empty, the engine -/
  turns : List Turn
  /-- the host's command words waiting at the port (30_encoding.md R72) -/
  port : List CommandWord
  /-- answers the transport will give to `TxTrySend`; when empty, free values -/
  tx : List Bool
  /-- answers the transport will give to `RxTryReceive`; when empty, free values -/
  rx : List (Option Frame)
  /-- how far the clock goes forward before each read; when empty, free values -/
  clk : List (BitVec 32)
  /-- values the random source will give; when empty, free values -/
  rnd : List (BitVec 16)
  /-- the clock's count, as far as it is known (notes/assumptions/4.md) -/
  now : BitVec 32
  /-- how many draws were made: the index of the next free value -/
  draws : Nat
  /-- the responses delivered to the host, newest first (R73) -/
  responses : List Response
  /-- those of them the host has not taken yet, oldest first (00_scope.md R5) -/
  pending : List Response
  /-- the frames offered to the transport, newest first (R110) -/
  offers : List Offer
deriving DecidableEq, Repr

/-- The machine: every register of 10_state.md, and the environment. -/
structure State where
  /-- `M0` (R11) -/
  m0 : Message
  /-- `M1` (R11) -/
  m1 : Message
  /-- `HASH` (R14) -/
  hash : BitVec 16
  /-- `TIMEOUT` (R15) -/
  timeout : BitVec 16
  /-- `CFG` (R16) -/
  cfg : BitVec 3
  /-- `ACTIVE` (R17) -/
  active : Bool
  /-- `ERR` (R18) -/
  err : BitVec 6
  /-- `PHASE` (R20) -/
  phase : Phase
  /-- `XCMD` (R21) -/
  xcmd : Byte
  /-- `XDST` (R21) -/
  xdst : MReg
  /-- `XERR` (R21) -/
  xerr : BitVec 3
  /-- `T0` (R22) -/
  t0 : BitVec 32
  /-- `CONTESTED` (R23) -/
  contested : Bool
  /-- `SCR` (R24) -/
  scr : Message
  /-- `TXT` (R25) -/
  txt : TextBuf
  /-- `TXTLEN` (R25) -/
  txtlen : BitVec 6
  /-- the agents outside the block (R31) -/
  env : Env
deriving DecidableEq, Repr

/-- Why the machine stops with a fault. -/
inductive Fault where
  /-- Raised by `step` alone: `PHASE = HALTED` enables no micro-step (60_exceptions.md R226) and no turn of
  another agent is scheduled, so no step is left to make. Safe: the spec's own stuck state. -/
  | halted
deriving DecidableEq, Repr

/-- Why a step has no meaning. -/
inductive Refusal where
  /-- Raised by an arm of `exec` whose instruction has no meaning yet; no arm is left that does. Safe: the
  machine stops. -/
  | notModelled (mnemonic : String)
deriving DecidableEq, Repr

/-- The environment right after power-on, before anyone has placed a word, a turn or an answer. The spec gives
these fields no value; every one is the model's (notes/assumptions/4.md, 15.md, 19.md). -/
def Env.start : Env :=
  { turns := [], port := [], tx := [], rx := [], clk := [], rnd := [], now := 0, draws := 0,
    responses := [], pending := [], offers := [] }

/-- The machine right after reset (10_state.md R30). -/
def State.reset : State :=
  { m0 := Message.cleared, m1 := Message.cleared, hash := 0, timeout := Config.timeoutReset, cfg := 0,
    active := false, err := 0, phase := .idle, xcmd := 0, xdst := .m0, xerr := 0, t0 := 0,
    contested := false, scr := Message.cleared, txt := TextBuf.zero, txtlen := 0, env := Env.start }

end Sys2Proof.Machine
end

