-- ==== Sys2Proof/Machine/Flags.lean ====
section
/-!
DEFINITION. The flags of the block: the error causes with their codes and sticky bits (60_exceptions.md R220),
the bits of `CFG` (10_state.md R16), the view `STATUS` (R19) and the level outputs (R32).
-/

namespace Sys2Proof.Machine

/-- The error causes (60_exceptions.md R220). -/
inductive Cause where
  /-- the transport rejected a frame -/
  | sendFailure
  /-- no matching response within the budget -/
  | responseTimeout
  /-- malformed text -/
  | decodeFailure
  /-- a command word that matches no row -/
  | illegalCommand
  /-- an operand out of range -/
  | badArgument
  /-- `SETHASH` when `ACTIVE = 1` -/
  | badState
deriving DecidableEq, Repr

/-- The code a cause shows as `err` (R220). -/
def causeCode : Cause → BitVec 3
  | .sendFailure => 1
  | .responseTimeout => 2
  | .decodeFailure => 3
  | .illegalCommand => 4
  | .badArgument => 5
  | .badState => 6

/-- The bit of `ERR` a cause sets (R220, 10_state.md R18). -/
def causeBit : Cause → Nat
  | .sendFailure => 0
  | .responseTimeout => 1
  | .decodeFailure => 2
  | .illegalCommand => 3
  | .badArgument => 4
  | .badState => 5

/-- The sticky bit as a mask over `ERR`. -/
def causeMask (e : Cause) : BitVec 6 := 1 <<< causeBit e

/-- `ERR` with a cause's sticky bit set; a bit already set stays set (R18). -/
def errWith (err : BitVec 6) (e : Cause) : BitVec 6 := err ||| causeMask e

/-- `ERR` after `CLRERR` with mask `m` (45_system_ops.md R188). -/
def errCleared (err m : BitVec 6) : BitVec 6 := err &&& ~~~m

/-- `CFG.DEBUG` (10_state.md R16). -/
def State.cfgDebug (s : State) : Bool := s.cfg.getLsbD 0

/-- `CFG.LOOPBACK` (R16). -/
def State.cfgLoopback (s : State) : Bool := s.cfg.getLsbD 1

/-- `CFG.SFPOL` (R16): true is the policy `HALT`. -/
def State.sfpolHalt (s : State) : Bool := s.cfg.getLsbD 2

/-- `STATUS.IDENT` (R19); also the logical state `Identified` (R26). -/
def State.ident (s : State) : Bool := s.hash != 0

/-- `STATUS` (R19): bit 1 `ACTIVE`, bit 0 `IDENT`. -/
def State.status (s : State) : BitVec 2 := BitVec.ofBool s.active ++ BitVec.ofBool s.ident

/-- The level outputs (R32) and `cmd_ready` (30_encoding.md R72). -/
structure Outputs where
  /-- `PHASE` is neither `IDLE` nor `HALTED` -/
  busyO : Bool
  /-- `PHASE = HALTED` -/
  haltedO : Bool
  /-- `PHASE = HALTED`: the request to cut track power -/
  estopReqO : Bool
  /-- `STATUS.IDENT` -/
  identO : Bool
  /-- `CFG.DEBUG` -/
  debugO : Bool
  /-- `CFG.LOOPBACK` -/
  loopbackO : Bool
  /-- `PHASE = IDLE` -/
  cmdReady : Bool
deriving DecidableEq, Repr

/-- The outputs as functions of state (R32, R72). -/
def State.outputs (s : State) : Outputs :=
  { busyO := s.phase != .idle && s.phase != .halted, haltedO := s.phase == .halted,
    estopReqO := s.phase == .halted, identO := s.ident, debugO := s.cfgDebug,
    loopbackO := s.cfgLoopback, cmdReady := s.phase == .idle }

/-- The 3-bit code of `PHASE` (10_state.md R20). -/
def phaseCode : Phase → BitVec 3
  | .idle => 0
  | .exPoll => 1
  | .ngDraw => 2
  | .ngSend => 3
  | .ngSettle => 4
  | .ngDrain => 5
  | .halted => 7

end Sys2Proof.Machine
end

