-- ==== Sys2Proof/Machine/Operands.lean ====
section
/-!
DEFINITION. The operand forms: field selectors (30_encoding.md R71), the range check of `LDF`
(40_message_ops.md R94), big-endian byte pairs (20_memory.md R43), system register numbers (10_state.md R27),
and hexadecimal digits (44_text_codec.md R161).
-/

namespace Sys2Proof.Machine

/-! ### Byte pairs -/

/-- The more significant byte of a 16-bit value (40_message_ops.md R99). -/
def hiByte (v : BitVec 16) : Byte := v.extractLsb' 8 8

/-- The less significant byte. -/
def loByte (v : BitVec 16) : Byte := v.extractLsb' 0 8

/-- The 16-bit value of a big-endian pair (20_memory.md R43). -/
def joinBytes (hi lo : Byte) : BitVec 16 := hi ++ lo

/-! ### Field selectors -/

/-- The field selectors that name something (30_encoding.md R71). -/
inductive Field where
  | prio
  | cmd
  | resp
  | hash
  | len
  /-- `D0` to `D7` -/
  | byte (k : Fin 8)
  /-- `W0` to `W6`: the pair at `k` and `k + 1` -/
  | pair (k : Fin 7)
deriving DecidableEq, Repr

/-- The field a selector names; 5 to 7 and 23 to 31 name none (R71). -/
def fieldOf (sel : BitVec 5) : Option Field :=
  match sel.toNat with
  | 0 => some .prio
  | 1 => some .cmd
  | 2 => some .resp
  | 3 => some .hash
  | 4 => some .len
  | n =>
    if h : 8 ≤ n ∧ n < 16 then some (.byte ⟨n - 8, by omega⟩)
    else if h : 16 ≤ n ∧ n < 23 then some (.pair ⟨n - 16, by omega⟩)
    else none

/-- `MaxOf` (40_message_ops.md R94). -/
def Field.max : Field → Nat
  | .prio => 7
  | .cmd => 255
  | .resp => 1
  | .hash => 65535
  | .len => 8
  | .byte _ => 255
  | .pair _ => 65535

/-- The first index of a byte pair. -/
def pairHi (k : Fin 7) : Fin 8 := ⟨k.val, by omega⟩

/-- The second index of a byte pair. -/
def pairLo (k : Fin 7) : Fin 8 := ⟨k.val + 1, by omega⟩

/-- Write a field from the 16-bit immediate (40_message_ops.md R93, R95). -/
def Field.write (f : Field) (v : BitVec 16) (m : Message) : Message :=
  match f with
  | .prio => { m with prio := v.extractLsb' 0 3 }
  | .cmd => { m with cmd := v.extractLsb' 0 8 }
  | .resp => { m with resp := v.getLsbD 0 }
  | .hash => { m with hash := v }
  | .len => { m with len := v.extractLsb' 0 4 }
  | .byte k => { m with data := m.data.set k (loByte v) }
  | .pair k => { m with data := (m.data.set (pairHi k) (hiByte v)).set (pairLo k) (loByte v) }

/-- Read a field, zero-extended to the response's 32 bits (40_message_ops.md R97, R98). -/
def Field.read (f : Field) (m : Message) : BitVec 32 :=
  match f with
  | .prio => m.prio.zeroExtend 32
  | .cmd => m.cmd.zeroExtend 32
  | .resp => (BitVec.ofBool m.resp).zeroExtend 32
  | .hash => m.hash.zeroExtend 32
  | .len => m.len.zeroExtend 32
  | .byte k => m.data[k].zeroExtend 32
  | .pair k => (joinBytes m.data[pairHi k] m.data[pairLo k]).zeroExtend 32

/-! ### System registers -/

/-- The system registers `RDSR` can read (10_state.md R27). -/
inductive SysReg where
  | hash
  | timeout
  | cfg
  | status
  | err
  | txtlen
deriving DecidableEq, Repr

/-- The register a number names; 6 to 31 name none (R27). -/
def sysRegOf (sel : BitVec 5) : Option SysReg :=
  match sel.toNat with
  | 0 => some .hash
  | 1 => some .timeout
  | 2 => some .cfg
  | 3 => some .status
  | 4 => some .err
  | 5 => some .txtlen
  | _ => none

/-- The value of a system register, zero-extended (R27). -/
def SysReg.read (r : SysReg) (s : State) : BitVec 32 :=
  match r with
  | .hash => s.hash.zeroExtend 32
  | .timeout => s.timeout.zeroExtend 32
  | .cfg => s.cfg.zeroExtend 32
  | .status => s.status.zeroExtend 32
  | .err => s.err.zeroExtend 32
  | .txtlen => s.txtlen.zeroExtend 32

/-! ### Hexadecimal digits -/

/-- `HexChar` (44_text_codec.md R161): upper case on output. -/
def hexChar (d : BitVec 4) : Byte :=
  if d < 10 then 0x30 + d.zeroExtend 8 else 0x41 + (d.zeroExtend 8 - 10)

/-- `HexVal` (R161): either case on input. -/
def hexVal (c : Byte) : Option (BitVec 4) :=
  if 0x30 ≤ c ∧ c ≤ 0x39 then some ((c - 0x30).setWidth 4)
  else if 0x41 ≤ c ∧ c ≤ 0x46 then some ((c - 0x41 + 10).setWidth 4)
  else if 0x61 ≤ c ∧ c ≤ 0x66 then some ((c - 0x61 + 10).setWidth 4)
  else none

/-- `Hex(b, 2)` (R161). -/
def hexByte (b : Byte) : List Byte := [hexChar (b.extractLsb' 4 4), hexChar (b.extractLsb' 0 4)]

/-- `Hex(v, 4)` (R161). -/
def hexWord (v : BitVec 16) : List Byte := hexByte (hiByte v) ++ hexByte (loByte v)

/-! ### Text positions -/

/-- The position a text index names; 35 and above name none (44_text_codec.md R168, R169). -/
def textPos (idx : BitVec 6) : Option (Fin 35) :=
  if h : idx.toNat < 35 then some ⟨idx.toNat, h⟩ else none

end Sys2Proof.Machine
end

