-- ==== Sys2Proof/Machine/Codec.lean ====
section
/-!
DEFINITION. The two codecs as pure functions: message to and from frame (41_frame_io.md R113, R115), message to
and from text (44_text_codec.md R160, R164).
-/

namespace Sys2Proof.Machine

/-! ### Frames -/

/-- The payload with zero at every position from `len` on (41_frame_io.md R113, R115). -/
def padZero (len : BitVec 4) (d : Payload) : Payload :=
  Vector.ofFn fun k => if k.val < len.toNat then d[k] else 0

/-- `EncodeFrame` (R113). -/
def encodeFrame (m : Message) : Frame :=
  { id := packId m.prio m.cmd m.resp m.hash, ext := true, dlen := m.len, pay := padZero m.len m.data }

/-- A received length, saturated at 8 (R115). -/
def saturateLen (dlen : BitVec 4) : BitVec 4 := if 8 < dlen then 8 else dlen

/-- `DecodeFrame` (R115). -/
def decodeFrame (f : Frame) : Message :=
  { prio := idPrio f.id, cmd := idCmd f.id, resp := idResp f.id, hash := idHash f.id,
    len := saturateLen f.dlen, data := padZero (saturateLen f.dlen) f.pay }

/-- Semantic equality of messages (10_state.md R13). -/
def Message.SemEq (m n : Message) : Prop :=
  m.prio = n.prio ∧ m.cmd = n.cmd ∧ m.resp = n.resp ∧ m.hash = n.hash ∧ m.len = n.len ∧
    ∀ k : Fin 8, k.val < m.len.toNat → m.data[k] = n.data[k]

/-! ### Text -/

/-- The character of the response position: `'R'` or space (30_encoding.md R66). -/
def respChar (r : Bool) : Byte := if r then 0x52 else 0x20

/-- `EncodeText` (44_text_codec.md R160). -/
def encodeText (m : Message) : List Byte :=
  hexWord m.hash ++ [0x20, respChar m.resp, 0x20] ++ hexByte m.cmd ++ [0x20, hexChar m.len] ++
    (m.data.toList.take m.len.toNat).flatMap fun b => 0x20 :: hexByte b

/-- The value of the hexadecimal digit at a position, none where there is no digit. -/
def digitAt (cs : List Byte) (i : Nat) : Option (BitVec 4) := cs[i]?.bind hexVal

/-- The value of the two digits at a position. -/
def byteAt (cs : List Byte) (i : Nat) : Option Byte :=
  (digitAt cs i).bind fun hi => (digitAt cs (i + 1)).bind fun lo => some (hi ++ lo)

/-- The first `n` data bytes: byte `k` at positions `12 + 3k` and `13 + 3k` (30_encoding.md R66). -/
def bytesAt (cs : List Byte) : Nat → Option (List Byte)
  | 0 => some []
  | n + 1 => (bytesAt cs n).bind fun bs => (byteAt cs (12 + 3 * n)).bind fun b => some (bs ++ [b])

/-- A payload that begins with `bs` and is zero after it. -/
def payloadOf (bs : List Byte) : Payload := Vector.ofFn fun k => bs.getD k.val 0

/-- `DecodeText` (44_text_codec.md R164): the four causes of failure and no other. -/
def decodeText (cs : List Byte) : Option Message :=
  if cs.length < 11 then none
  else
    (byteAt cs 0).bind fun h1 => (byteAt cs 2).bind fun h0 => (byteAt cs 7).bind fun c =>
      (digitAt cs 10).bind fun len =>
        if 8 < len then none
        else if cs.length < 11 + 3 * len.toNat then none
        else
          (bytesAt cs len.toNat).bind fun bs =>
            some { prio := 0, cmd := c, resp := cs[5]? == some 0x52, hash := joinBytes h1 h0, len := len,
                   data := payloadOf bs }

/-- The text buffer with a string written from position 0 on; the rest keeps its bytes (R162). -/
def storeText (cs : List Byte) (t : TextBuf) : TextBuf := Vector.ofFn fun i => cs.getD i.val t[i]

end Sys2Proof.Machine
end

