-- ==== Sys2Proof/Machine/Ops.lean ====
section
/-!
DEFINITION. The shared operations over the state: message registers, the four primitives of the outside world
(00_scope.md R8), raising an error and responding (60_exceptions.md R222, 30_encoding.md R73), and reset
(70_reset_and_hazards.md R250). There is no return from an error (60_exceptions.md R232).
-/

namespace Sys2Proof.Machine

/-! ### Registers -/

/-- `M[a]` (10_state.md R11). -/
def State.msg (s : State) : MReg → Message
  | .m0 => s.m0
  | .m1 => s.m1

/-- `M[a] <- m`. -/
def State.setMsg (s : State) (a : MReg) (m : Message) : State :=
  match a with
  | .m0 => { s with m0 := m }
  | .m1 => { s with m1 := m }

/-- `M[a].hash <- HASH`, the stamp of a send (41_frame_io.md R112). -/
def State.stamp (s : State) (a : MReg) : State := s.setMsg a { s.msg a with hash := s.hash }

/-- `PHASE <- p`. -/
def State.setPhase (s : State) (p : Phase) : State := { s with phase := p }

/-- `SCR <- m` (10_state.md R24). -/
def State.setScr (s : State) (m : Message) : State := { s with scr := m }

/-- `HASH <- h` (10_state.md R14). -/
def State.setHash (s : State) (h : BitVec 16) : State := { s with hash := h }

/-- The string in the text buffer (10_state.md R25). -/
def State.text (s : State) : List Byte := s.txt.toList.take s.txtlen.toNat

/-! ### The transport, the clock, the random source -/

/-- The answer the next `TxTrySend` gets: a draw (41_frame_io.md R110). -/
def State.txAnswer (s : State) : Bool := s.env.tx.headD (Config.txAnswer s.env.draws)

/-- `TxTrySend f`: the offer and its answer are one event (R110). -/
def State.offer (s : State) (f : Frame) : State :=
  { s with env := { s.env with tx := s.env.tx.tail, draws := s.env.draws + 1,
                               offers := ⟨f, s.txAnswer⟩ :: s.env.offers } }

/-- The answer the next `RxTryReceive` gets: a draw (R111). -/
def State.rxAnswer (s : State) : Option Frame := s.env.rx.headD (Config.rxAnswer s.env.draws)

/-- `RxTryReceive()`: the answer is taken from the transport (R111). -/
def State.polled (s : State) : State :=
  { s with env := { s.env with rx := s.env.rx.tail, draws := s.env.draws + 1 } }

/-- What the next `Now()` reads: the clock has gone forward by a draw (60_exceptions.md R240). -/
def State.clock (s : State) : BitVec 32 := s.env.now + s.env.clk.headD (Config.clockJump s.env.draws)

/-- `Now()`. -/
def State.clockRead (s : State) : State :=
  { s with env := { s.env with clk := s.env.clk.tail, draws := s.env.draws + 1, now := s.clock } }

/-- The value the next `Rnd16()` gives: a draw (43_negotiation.md R141). -/
def State.rndValue (s : State) : BitVec 16 := s.env.rnd.headD (Config.rnd s.env.draws)

/-- `Rnd16()`. -/
def State.rndRead (s : State) : State :=
  { s with env := { s.env with rnd := s.env.rnd.tail, draws := s.env.draws + 1 } }

/-- A frame of another participant reaches the transport and waits behind the answers already known
(20_memory.md R54; notes/assumptions/1.md). -/
def State.deliver (s : State) (f : Frame) : State :=
  { s with env := { s.env with rx := s.env.rx ++ [some f] } }

/-- Elapsed milliseconds: the wrapped difference (42_exchange.md R135). -/
def elapsed (now t0 : BitVec 32) : BitVec 32 := now - t0

/-! ### Errors and responses -/

/-- `raise E`: the sticky bit of `E` (60_exceptions.md R222); the code goes into the response, which the
operation's own rule says. -/
def State.raise (s : State) (e : Cause) : State := { s with err := errWith s.err e }

/-- `respond(ok, err, val)`: the response is delivered and `PHASE <- IDLE` (30_encoding.md R73, 00_scope.md
R8). -/
def State.respond (s : State) (ok : Bool) (err : BitVec 3) (val : BitVec 32) : State :=
  { s with phase := .idle, env := { s.env with responses := ⟨ok, err, val⟩ :: s.env.responses,
                                               pending := s.env.pending ++ [⟨ok, err, val⟩] } }

/-- A refused command word: the error is raised and answered with `ok = 0`, its code and `val = 0`
(60_exceptions.md R222 to R225). -/
def State.refuse (s : State) (e : Cause) : State := (s.raise e).respond false (causeCode e) 0

/-! ### The agents' queues, and reset -/

/-- The turns that are left. -/
def State.setTurns (s : State) (ts : List Turn) : State := { s with env := { s.env with turns := ts } }

/-- The command words that are left at the port. -/
def State.setPort (s : State) (ws : List CommandWord) : State := { s with env := { s.env with port := ws } }

/-- What a step of an agent outside the block does to the environment (00_scope.md R5). -/
def Env.move (m : AgentMove) (e : Env) : Env :=
  match m with
  | .hostPresents w => { e with port := e.port ++ [w] }
  | .hostTakes => { e with pending := e.pending.tail }
  | .transportWillAnswer acc => { e with tx := e.tx ++ [acc] }
  | .transportWillBeEmpty => { e with rx := e.rx ++ [none] }
  | .clockAdvances ms => { e with now := e.now + ms }
  | .randomSettles v => { e with rnd := e.rnd ++ [v] }

/-- An agent outside the block makes a step: no register changes. -/
def State.outside (s : State) (m : AgentMove) : State := { s with env := s.env.move m }

/-- `rst` asserted: every register takes its reset value and no response is pending (70_reset_and_hazards.md R250);
the transport, the clock, the random source and the host's words stay as they are (R251;
notes/assumptions/18.md). -/
def State.resetBlock (s : State) : State := { State.reset with env := { s.env with pending := [] } }

end Sys2Proof.Machine
end

