-- ==== Sys2Proof/Machine/BusOps.lean ====
section
/-!
DEFINITION. The protocol command codes of 30_encoding.md R77 as events: a frame of another participant with
that code reaches the transport and waits for a poll of RECV, EXCH or the drain. The block carries every code
unchanged and decodes none (R76, R78); what a code means to the surrounding software is in Facade.lean.
-/

namespace Sys2Proof.Machine

/-- A frame with command code 0x00 arrives (46_command_layouts.md R197 to R199: power, halt, stop). -/
def execBusSystem (g : BusArgs) (s : State) : Host.Outcome State Fault Refusal :=
  .next (s.deliver (busFrame 0x00 g))

/-- A frame with command code 0x04 arrives (46_command_layouts.md R201). -/
def execBusSpeed (g : BusArgs) (s : State) : Host.Outcome State Fault Refusal :=
  .next (s.deliver (busFrame 0x04 g))

/-- A frame with command code 0x05 arrives (46_command_layouts.md R200). -/
def execBusDirection (g : BusArgs) (s : State) : Host.Outcome State Fault Refusal :=
  .next (s.deliver (busFrame 0x05 g))

/-- A frame with command code 0x06 arrives (46_command_layouts.md R202). -/
def execBusFunction (g : BusArgs) (s : State) : Host.Outcome State Fault Refusal :=
  .next (s.deliver (busFrame 0x06 g))

/-- A frame with command code 0x07 arrives (46_command_layouts.md R204). -/
def execBusReadConfig (g : BusArgs) (s : State) : Host.Outcome State Fault Refusal :=
  .next (s.deliver (busFrame 0x07 g))

/-- A frame with command code 0x08 arrives (46_command_layouts.md R205). -/
def execBusWriteConfig (g : BusArgs) (s : State) : Host.Outcome State Fault Refusal :=
  .next (s.deliver (busFrame 0x08 g))

/-- A frame with command code 0x0B arrives (46_command_layouts.md R203). -/
def execBusAccessory (g : BusArgs) (s : State) : Host.Outcome State Fault Refusal :=
  .next (s.deliver (busFrame 0x0B g))

/-- A frame with command code 0x18 arrives (46_command_layouts.md R206). -/
def execBusPing (g : BusArgs) (s : State) : Host.Outcome State Fault Refusal :=
  .next (s.deliver (busFrame 0x18 g))

end Sys2Proof.Machine
end

