-- ==== Sys2Proof/Machine/Exchange.lean ====
section
/-!
DEFINITION. The exchange sequencer: EXCH and its `EX_POLL` micro-step (42_exchange.md).
-/

namespace Sys2Proof.Machine

/-- The end of the first micro-step of `EXCH` for the transport's answer `acc`: R126 when accepted; when
rejected R127, by the policy `CFG.SFPOL`. -/
def exchAnswered (acc : Bool) (s : State) : State :=
  if acc then s.setPhase .exPoll
  else
    let s1 := { s.raise .sendFailure with xerr := causeCode .sendFailure }
    if s.sfpolHalt then s1.setPhase .halted else s1.setPhase .exPoll

/-- The registers `EXCH` captures when it is taken (R126): the clock first, then `XCMD`, `XDST`, `XERR`. -/
def exchBegin (a b : MReg) (s : State) : State :=
  { s.clockRead with t0 := s.clock, xcmd := (s.msg a).cmd, xdst := b, xerr := 0 }

/-- `EXCH a, b`, first micro-step (R126). -/
def execExch (a b : MReg) (s : State) : Host.Outcome State Fault Refusal :=
  let s1 := (exchBegin a b s).stamp a
  let f := encodeFrame (s1.msg a)
  .next (exchAnswered s1.txAnswer (s1.offer f))

/-- The timeout exit of `EX_POLL` (R128): a pending code is reported before the timeout's own. -/
def exchTimeout (s : State) : State :=
  (s.raise .responseTimeout).respond false (if s.xerr ≠ 0 then s.xerr else causeCode .responseTimeout) 0

/-- Whether a decoded message answers the exchange (R128): same `cmd`, `resp` true, nothing else. -/
def exchMatches (s : State) (m : Message) : Bool := m.cmd == s.xcmd && m.resp

/-- What `EX_POLL` does with the answer `r` of its one poll (R128). -/
def exchPolled (r : Option Frame) (s : State) : State :=
  match r with
  | none => s
  | some f =>
    let m := decodeFrame f
    let s1 := s.setScr m
    if exchMatches s m then (s1.setMsg s.xdst m).respond true s.xerr (f.id.zeroExtend 32) else s1

/-- Whether the budget is used up when the clock reads `now` (R128, R135). -/
def exchExpired (s : State) (now : BitVec 32) : Bool := s.timeout.zeroExtend 32 ≤ elapsed now s.t0

/-- The `EX_POLL` micro-step (R128): the timeout test, then at most one poll. -/
def exPoll (s : State) : State :=
  let s1 := s.clockRead
  if exchExpired s s.clock then exchTimeout s1 else exchPolled s1.rxAnswer s1.polled

end Sys2Proof.Machine
end

