-- ==== Sys2Proof/Machine/FrameIo.lean ====
section
/-!
DEFINITION. Frame input and output: SEND, RECV (41_frame_io.md).
-/

namespace Sys2Proof.Machine

/-- The end of a `SEND` whose frame was `f` and whose answer was `acc` (R112). -/
def sendAnswered (f : Frame) (acc : Bool) (s : State) : State :=
  if acc then s.respond true 0 (f.id.zeroExtend 32)
  else (s.raise .sendFailure).respond false (causeCode .sendFailure) (f.id.zeroExtend 32)

/-- `SEND a` (R112): stamp, encode, offer once. -/
def execSend (a : MReg) (s : State) : Host.Outcome State Fault Refusal :=
  let s1 := s.stamp a
  let f := encodeFrame (s1.msg a)
  .next (sendAnswered f s1.txAnswer (s1.offer f))

/-- The end of a `RECV` whose one poll answered `r` (R114). -/
def recvAnswered (a : MReg) (r : Option Frame) (s : State) : State :=
  match r with
  | none => s.respond false 0 0
  | some f => (s.setMsg a (decodeFrame f)).respond true 0 (f.id.zeroExtend 32)

/-- `RECV a` (R114): one poll, never a wait. -/
def execRecv (a : MReg) (s : State) : Host.Outcome State Fault Refusal :=
  .next (recvAnswered a s.rxAnswer s.polled)

end Sys2Proof.Machine
end

