-- ==== Sys2Proof/Machine/MessageOps.lean ====
section
/-!
DEFINITION. The message register operations CLEAR, LDF, RDF (40_message_ops.md).
-/

namespace Sys2Proof.Machine

/-- `CLEAR a` (R91): every field of `M[a]` becomes zero. -/
def execClear (a : MReg) (s : State) : Host.Outcome State Fault Refusal :=
  .next ((s.setMsg a Message.cleared).respond true 0 0)

/-- The effect of `LDF` (R93, R94): an unknown selector or an immediate above the field's maximum is refused. -/
def loadField (a : MReg) (sel : BitVec 5) (imm : BitVec 16) (s : State) : State :=
  match fieldOf sel with
  | none => s.refuse .badArgument
  | some f =>
    if f.max < imm.toNat then s.refuse .badArgument
    else (s.setMsg a (f.write imm (s.msg a))).respond true 0 0

/-- `LDF a, sel, imm` (R93). -/
def execLdf (a : MReg) (sel : BitVec 5) (imm : BitVec 16) (s : State) : Host.Outcome State Fault Refusal :=
  .next (loadField a sel imm s)

/-- The effect of `RDF` (R97): an unknown selector is refused, a field is returned in `val`. -/
def readField (a : MReg) (sel : BitVec 5) (s : State) : State :=
  match fieldOf sel with
  | none => s.refuse .badArgument
  | some f => s.respond true 0 (f.read (s.msg a))

/-- `RDF a, sel` (R97). -/
def execRdf (a : MReg) (sel : BitVec 5) (s : State) : Host.Outcome State Fault Refusal :=
  .next (readField a sel s)

end Sys2Proof.Machine
end

