-- ==== Sys2Proof/Machine/Negotiate.lean ====
section
/-!
DEFINITION. The identity arbiter: NEGOTIATE and the micro-steps `NG_DRAW`, `NG_SEND`, `NG_SETTLE`, `NG_DRAIN`
(43_negotiation.md).
-/

namespace Sys2Proof.Machine

/-- `NEGOTIATE` (R140): start the arbiter whatever `HASH` and `ACTIVE` hold. -/
def execNegotiate (s : State) : Host.Outcome State Fault Refusal :=
  .next ({ s with xerr := 0 }.setPhase .ngDraw)

/-- The candidate of a draw `r`: the AND-mask first, then the OR-pattern (R142). -/
def candidate (andMask orMask r : BitVec 16) : BitVec 16 := (r &&& andMask) ||| orMask

/-- `NG_DRAW` (R142): the candidate is adopted at once. -/
def ngDraw (s : State) : State :=
  (s.rndRead.setHash (candidate Config.hashAnd Config.hashOr s.rndValue)).setPhase .ngSend

/-- `PING_CMD` (00_scope.md R6). -/
def pingCmd : Byte := 0x18

/-- The ping: a cleared message with the command code and the stamp (R143). -/
def pingMessage (hash : BitVec 16) : Message := { Message.cleared with cmd := pingCmd, hash := hash }

/-- A rejected ping leaves a trace in `ERR` and nowhere else (R143, R146). -/
def pingAnswered (acc : Bool) (s : State) : State := if acc then s else s.raise .sendFailure

/-- `NG_SEND` (R143): the ping is offered, then the settle interval starts. -/
def ngSend (s : State) : State :=
  let s1 := s.setScr (pingMessage s.hash)
  let s2 := pingAnswered s1.txAnswer (s1.offer (encodeFrame (pingMessage s.hash)))
  { s2.clockRead with t0 := s2.clock, contested := false, phase := .ngSettle }

/-- Whether the settle interval is over when the clock reads `now` (R144). -/
def settled (settleMs now t0 : BitVec 32) : Bool := settleMs ≤ elapsed now t0

/-- `NG_SETTLE` (R144). -/
def ngSettle (s : State) : State :=
  if settled Config.settleMs s.clock s.t0 then s.clockRead.setPhase .ngDrain else s.clockRead

/-- What `NG_DRAIN` does with the answer `r` of its one poll (R145): a frame is compared, `none` decides. -/
def drainAnswered (r : Option Frame) (s : State) : State :=
  match r with
  | some f => { s.setScr (decodeFrame f) with contested := s.contested || (decodeFrame f).hash == s.hash }
  | none => if s.contested then s.setPhase .ngDraw else s.respond true 0 (s.hash.zeroExtend 32)

/-- `NG_DRAIN` (R145). -/
def ngDrain (s : State) : State := drainAnswered s.rxAnswer s.polled

end Sys2Proof.Machine
end

