-- ==== Sys2Proof/Machine/SystemOps.lean ====
section
/-!
DEFINITION. The system operations NOP, ACTIVATE, SETHASH, SETTMO, SETCFG, RDSR, CLRERR (45_system_ops.md).
-/

namespace Sys2Proof.Machine

/-- `NOP` (R180). -/
def execNop (s : State) : Host.Outcome State Fault Refusal := .next (s.respond true 0 0)

/-- What `ACTIVATE` does after it has set `ACTIVE` (R183): with no identity it runs the arbiter. -/
def activated (s : State) : State :=
  if s.hash = 0 then s.setPhase .ngDraw else s.respond true 0 (s.hash.zeroExtend 32)

/-- `ACTIVATE` (R183). -/
def execActivate (s : State) : Host.Outcome State Fault Refusal :=
  .next (activated { s with active := true, xerr := 0 })

/-- The effect of `SETHASH` (R184): only during construction. -/
def assignHash (imm : BitVec 16) (s : State) : State :=
  if s.active then s.refuse .badState else (s.setHash imm).respond true 0 0

/-- `SETHASH imm` (R184). -/
def execSethash (imm : BitVec 16) (s : State) : Host.Outcome State Fault Refusal := .next (assignHash imm s)

/-- `SETTMO imm` (R185). -/
def execSettmo (imm : BitVec 16) (s : State) : Host.Outcome State Fault Refusal :=
  .next ({ s with timeout := imm }.respond true 0 0)

/-- `SETCFG imm` (R186). -/
def execSetcfg (cfg : BitVec 3) (s : State) : Host.Outcome State Fault Refusal :=
  .next ({ s with cfg := cfg }.respond true 0 0)

/-- The effect of `RDSR` (R187). -/
def readSysReg (sel : BitVec 5) (s : State) : State :=
  match sysRegOf sel with
  | none => s.refuse .badArgument
  | some r => s.respond true 0 (r.read s)

/-- `RDSR sel` (R187). -/
def execRdsr (sel : BitVec 5) (s : State) : Host.Outcome State Fault Refusal := .next (readSysReg sel s)

/-- `CLRERR imm` (R188). -/
def execClrerr (mask : BitVec 6) (s : State) : Host.Outcome State Fault Refusal :=
  .next ({ s with err := errCleared s.err mask }.respond true 0 0)

end Sys2Proof.Machine
end

