-- ==== Sys2Proof/Machine/TextOps.lean ====
section
/-!
DEFINITION. The text operations TXENC, TXDEC, LDT, RDT, SETTL (44_text_codec.md).
-/

namespace Sys2Proof.Machine

/-- `TXENC a` (R162): the text form goes to the front of the buffer, its length to `TXTLEN` and `val`. -/
def execTxenc (a : MReg) (s : State) : Host.Outcome State Fault Refusal :=
  let cs := encodeText (s.msg a)
  .next ({ s with txt := storeText cs s.txt, txtlen := BitVec.ofNat 6 cs.length }.respond true 0
    (BitVec.ofNat 32 cs.length))

/-- The end of a `TXDEC` whose decoder answered `r` (R165); on failure the register is cleared (R166). -/
def txdecAnswered (a : MReg) (r : Option Message) (s : State) : State :=
  match r with
  | some m => (s.setMsg a m).respond true 0 0
  | none => (s.setMsg a Message.cleared).refuse .decodeFailure

/-- `TXDEC a` (R165). -/
def execTxdec (a : MReg) (s : State) : Host.Outcome State Fault Refusal :=
  .next (txdecAnswered a (decodeText s.text) s)

/-- The effect of `LDT` (R168). -/
def loadChar (idx : BitVec 6) (ch : Byte) (s : State) : State :=
  match textPos idx with
  | none => s.refuse .badArgument
  | some i => { s with txt := s.txt.set i ch }.respond true 0 0

/-- `LDT idx, ch` (R168). -/
def execLdt (idx : BitVec 6) (ch : Byte) (s : State) : Host.Outcome State Fault Refusal :=
  .next (loadChar idx ch s)

/-- The effect of `RDT` (R169). -/
def readChar (idx : BitVec 6) (s : State) : State :=
  match textPos idx with
  | none => s.refuse .badArgument
  | some i => s.respond true 0 (s.txt[i].zeroExtend 32)

/-- `RDT idx` (R169). -/
def execRdt (idx : BitVec 6) (s : State) : Host.Outcome State Fault Refusal :=
  .next (readChar idx s)

/-- The effect of `SETTL` (R170). -/
def setTextLen (n : BitVec 6) (s : State) : State :=
  if 35 < n then s.refuse .badArgument else { s with txtlen := n }.respond true 0 0

/-- `SETTL n` (R170). -/
def execSettl (n : BitVec 6) (s : State) : Host.Outcome State Fault Refusal :=
  .next (setTextLen n s)

end Sys2Proof.Machine
end

