-- ==== Sys2Proof/Machine/Dispatch.lean ====
section
/-!
DEFINITION. One arm per instruction: the meaning of each row of spec/opcode_table.json.
-/

namespace Sys2Proof.Machine

-- What an instruction does when it is taken: for a command word the first micro-step of its operation
-- (30_encoding.md R72), for a protocol command code the arrival of its frame.
def exec (i : Instr) (s : State) : Host.Outcome State Fault Refusal :=
  match i with
  | .nop => Sys2Proof.Machine.execNop s
  | .clear a => Sys2Proof.Machine.execClear a s
  | .ldf a sel imm => Sys2Proof.Machine.execLdf a sel imm s
  | .rdf a sel => Sys2Proof.Machine.execRdf a sel s
  | .send a => Sys2Proof.Machine.execSend a s
  | .recv a => Sys2Proof.Machine.execRecv a s
  | .exch a b => Sys2Proof.Machine.execExch a b s
  | .negotiate => Sys2Proof.Machine.execNegotiate s
  | .activate => Sys2Proof.Machine.execActivate s
  | .sethash imm => Sys2Proof.Machine.execSethash imm s
  | .settmo imm => Sys2Proof.Machine.execSettmo imm s
  | .setcfg cfg => Sys2Proof.Machine.execSetcfg cfg s
  | .rdsr sel => Sys2Proof.Machine.execRdsr sel s
  | .clrerr mask => Sys2Proof.Machine.execClrerr mask s
  | .txenc a => Sys2Proof.Machine.execTxenc a s
  | .txdec a => Sys2Proof.Machine.execTxdec a s
  | .ldt idx ch => Sys2Proof.Machine.execLdt idx ch s
  | .rdt idx => Sys2Proof.Machine.execRdt idx s
  | .settl n => Sys2Proof.Machine.execSettl n s
  | .busSystem g => Sys2Proof.Machine.execBusSystem g s
  | .busSpeed g => Sys2Proof.Machine.execBusSpeed g s
  | .busDirection g => Sys2Proof.Machine.execBusDirection g s
  | .busFunction g => Sys2Proof.Machine.execBusFunction g s
  | .busReadConfig g => Sys2Proof.Machine.execBusReadConfig g s
  | .busWriteConfig g => Sys2Proof.Machine.execBusWriteConfig g s
  | .busAccessory g => Sys2Proof.Machine.execBusAccessory g s
  | .busPing g => Sys2Proof.Machine.execBusPing g s

end Sys2Proof.Machine
end

