-- ==== Sys2Proof/Machine/Engine.lean ====
section
/-!
DEFINITION. The turns: how the engine takes a command word or goes on with the operation in progress
(10_state.md R20, 30_encoding.md R72), how a frame reaches the transport, and how a word is placed where the
machine takes its next instruction from.
-/

namespace Sys2Proof.Machine

/-- A command word is taken: it is decoded and its operation performs its first micro-step; an illegal word is
refused (30_encoding.md R72, R75, 60_exceptions.md R223). -/
def takeWord (w : CommandWord) (s : State) : Host.Outcome State Fault Refusal :=
  match decode (.command w) with
  | .ok i => exec i s
  | .error _ => .next (s.refuse .illegalCommand)

/-- `PHASE = IDLE`: the block takes the word at the port; with none presented it waits (R72;
notes/assumptions/5.md). -/
def idleTurn (s : State) : Host.Outcome State Fault Refusal :=
  match s.env.port with
  | [] => .next s
  | w :: ws => takeWord w (s.setPort ws)

/-- The engine's turn: the micro-step that `PHASE` selects (10_state.md R20). In `HALTED` no micro-step is
enabled and nothing changes (60_exceptions.md R226). -/
def engineTurn (s : State) : Host.Outcome State Fault Refusal :=
  match s.phase with
  | .idle => idleTurn s
  | .exPoll => .next (exPoll s)
  | .ngDraw => .next (ngDraw s)
  | .ngSend => .next (ngSend s)
  | .ngSettle => .next (ngSettle s)
  | .ngDrain => .next (ngDrain s)
  | .halted => .next s

/-- A frame reaches the transport: as the instruction its command code stands for, or, for a code in no row of
30_encoding.md R77, carried unchanged (R76, R78). -/
def busTurn (f : Frame) (s : State) : Host.Outcome State Fault Refusal :=
  match decode (.frame f) with
  | .ok i => exec i s
  | .error _ => .next (s.deliver f)

/-- No turn is scheduled: the engine moves, and a halted block is stuck (60_exceptions.md R226;
notes/assumptions/7.md). -/
def unscheduledTurn (s : State) : Host.Outcome State Fault Refusal :=
  if s.phase = .halted then .fault .halted else engineTurn s

/-- One turn of the agent that moves next (00_scope.md R5; notes/assumptions/2.md). -/
def turn (s : State) : Host.Outcome State Fault Refusal :=
  match s.env.turns with
  | [] => unscheduledTurn s
  | .engine :: ts => engineTurn (s.setTurns ts)
  | .reset :: ts => .next (s.setTurns ts).resetBlock
  | .bus f :: ts => busTurn f (s.setTurns ts)
  | .outside m :: ts => .next ((s.setTurns ts).outside m)

/-- `s` with `x` placed so that the next turn takes it: a command word first at the port of an idle block whose
turn it is, a frame as the next bus turn. -/
def placeWire (x : Wire) (s : State) : State :=
  match x with
  | .command w => ((s.setPhase .idle).setPort (w :: s.env.port)).setTurns (.engine :: s.env.turns)
  | .frame f => s.setTurns (.bus f :: s.env.turns)

end Sys2Proof.Machine
end

