-- ==== Sys2Proof/Machine/Step.lean ====
section
/-!
DEFINITION. The step of the machine, and the placing of one instruction where the step takes its next one from.
-/

namespace Sys2Proof.Machine

/-- One step: one turn of the agent that moves next. -/
def step (s : State) : Host.Outcome State Fault Refusal := turn s

/-- `s` with the instruction whose bits are `w` placed so that the very next step runs it
(notes/assumptions/6.md). -/
def State.withFetchWord (s : State) (nbits w : Nat) : State := placeWire (wireOfBits nbits w) s

end Sys2Proof.Machine
end

