-- ==== Sys2Proof/Machine/Facade.lean ====
section
/-!
DEFINITION. The command layouts of the surrounding software (46_command_layouts.md): its pseudo-operations, the
command words each one is (R196 to R206), the request message those words build (R195), the
compositions (R210, R211), the results (R212), and the reading of a request by its code and payload (30_encoding.md
R77). Host side: none of it adds behaviour to the block.
-/

namespace Sys2Proof.Machine

/-- The pseudo-operations that are one exchange (R197 to R206). -/
inductive PseudoOp where
  | power (on : Bool)
  | halt
  | estop
  | setDir (addr : BitVec 16) (d : Byte)
  | getDir (addr : BitVec 16)
  | setSpeed (addr v : BitVec 16)
  | getSpeed (addr : BitVec 16)
  | setFunc (addr : BitVec 16) (i l : Byte)
  | getFunc (addr : BitVec 16) (i : Byte)
  | setAcc (addr : BitVec 16) (pos pw : Byte)
  | rdCfg (addr n : BitVec 16)
  | wrCfg (addr n : BitVec 16) (v : Byte)
  | ping
deriving DecidableEq, Repr

/-- The command code of the request (R195). -/
def PseudoOp.code : PseudoOp → Byte
  | .power _ => 0x00
  | .halt => 0x00
  | .estop => 0x00
  | .setDir _ _ => 0x05
  | .getDir _ => 0x05
  | .setSpeed _ _ => 0x04
  | .getSpeed _ => 0x04
  | .setFunc _ _ _ => 0x06
  | .getFunc _ _ => 0x06
  | .setAcc _ _ _ => 0x0B
  | .rdCfg _ _ => 0x07
  | .wrCfg _ _ _ => 0x08
  | .ping => 0x18

/-- The payload bytes of the request, in index order; their number is the request's length (R195, R196). -/
def PseudoOp.bytes : PseudoOp → List Byte
  | .power on => [0, 0, 0, 0, if on then 1 else 0]
  | .halt => [0, 0, 0, 0, 2]
  | .estop => [0, 0, 0, 0, 3]
  | .setDir a d => [0, 0, hiByte a, loByte a, d]
  | .getDir a => [0, 0, hiByte a, loByte a]
  | .setSpeed a v => [0, 0, hiByte a, loByte a, hiByte v, loByte v]
  | .getSpeed a => [0, 0, hiByte a, loByte a]
  | .setFunc a i l => [0, 0, hiByte a, loByte a, i, l]
  | .getFunc a i => [0, 0, hiByte a, loByte a, i]
  | .setAcc a pos pw => [0, 0, hiByte a, loByte a, pos, pw]
  | .rdCfg a n => [0, 0, hiByte a, loByte a, hiByte n, loByte n, 1]
  | .wrCfg a n v => [0, 0, hiByte a, loByte a, hiByte n, loByte n, v]
  | .ping => []

/-- The request message, stamped with `hash` (R195 to R206). -/
def PseudoOp.request (op : PseudoOp) (hash : BitVec 16) : Message :=
  { prio := 0, cmd := op.code, resp := false, hash := hash, len := BitVec.ofNat 4 op.bytes.length,
    data := payloadOf op.bytes }

/-- `LDF M0` of the command code, a byte, a byte pair, the length (30_encoding.md R71). -/
def loadCmd (c : Byte) : Instr := .ldf .m0 1 (c.zeroExtend 16)

/-- `LDF M0, Dk, b`. -/
def loadByte (k : Fin 8) (b : Byte) : Instr := .ldf .m0 (BitVec.ofNat 5 (8 + k.val)) (b.zeroExtend 16)

/-- `LDF M0, Wk, v`. -/
def loadPair (k : Fin 7) (v : BitVec 16) : Instr := .ldf .m0 (BitVec.ofNat 5 (16 + k.val)) v

/-- `LDF M0, LEN, n`. -/
def loadLen (n : BitVec 16) : Instr := .ldf .m0 4 n

/-- The loads between `CLEAR`, `LDF CMD` and `EXCH` (R197 to R206). -/
def PseudoOp.loads : PseudoOp → List Instr
  | .power on => [loadByte 4 (if on then 1 else 0), loadLen 5]
  | .halt => [loadByte 4 2, loadLen 5]
  | .estop => [loadByte 4 3, loadLen 5]
  | .setDir a d => [loadPair 2 a, loadByte 4 d, loadLen 5]
  | .getDir a => [loadPair 2 a, loadLen 4]
  | .setSpeed a v => [loadPair 2 a, loadPair 4 v, loadLen 6]
  | .getSpeed a => [loadPair 2 a, loadLen 4]
  | .setFunc a i l => [loadPair 2 a, loadByte 4 i, loadByte 5 l, loadLen 6]
  | .getFunc a i => [loadPair 2 a, loadByte 4 i, loadLen 5]
  | .setAcc a pos pw => [loadPair 2 a, loadByte 4 pos, loadByte 5 pw, loadLen 6]
  | .rdCfg a n => [loadPair 2 a, loadPair 4 n, loadByte 6 1, loadLen 7]
  | .wrCfg a n v => [loadPair 2 a, loadPair 4 n, loadByte 6 v, loadLen 7]
  | .ping => []

/-- The `RDF M1` operations that read the result (R200 to R206). -/
def PseudoOp.reads : PseudoOp → List Instr
  | .power _ => []
  | .halt => []
  | .estop => []
  | .setDir _ _ => [.rdf .m1 12]
  | .getDir _ => [.rdf .m1 12]
  | .setSpeed _ _ => [.rdf .m1 20]
  | .getSpeed _ => [.rdf .m1 20]
  | .setFunc _ _ _ => [.rdf .m1 13]
  | .getFunc _ _ => [.rdf .m1 13]
  | .setAcc _ _ _ => [.rdf .m1 12, .rdf .m1 13]
  | .rdCfg _ _ => [.rdf .m1 14]
  | .wrCfg _ _ _ => []
  | .ping => [.rdf .m1 12, .rdf .m1 13]

/-- The operations that build the request in `M0` (R197 to R206). -/
def PseudoOp.build (op : PseudoOp) : List Instr := .clear .m0 :: loadCmd op.code :: op.loads

/-- The operations up to and including the exchange. -/
def PseudoOp.exchange (op : PseudoOp) : List Instr := op.build ++ [.exch .m0 .m1]

/-- The command word of an operation; a frame has none. -/
def wireWord : Wire → Option CommandWord
  | .command w => some w
  | .frame _ => none

/-- The command words the host issues for a list of operations. -/
def commandWords (is : List Instr) : List CommandWord := is.filterMap fun i => wireWord (encode i)

/-- What a list of operations does when the block takes one after the other and each completes when it is taken
(20_memory.md R52). -/
def execList : List Instr → State → Host.Outcome State Fault Refusal
  | [], s => .next s
  | i :: is, s =>
    match exec i s with
    | .next t => execList is t
    | .fault r => .fault r
    | .refused r => .refused r

/-- The value a reading operation gets from a message; only `RDF` reads one. -/
def readValue (m : Message) : Instr → Option (BitVec 32)
  | .rdf _ sel => (fieldOf sel).map fun f => f.read m
  | _ => none

/-- The result of a pseudo-operation whose `EXCH` answered `r` and left `m` in `M1`: nothing when the exchange
failed, else the values its `RDF`s read (R212, R213). -/
def PseudoOp.outcome (op : PseudoOp) (r : Response) (m : Message) : Option (List (BitVec 32)) :=
  if r.ok then some (op.reads.filterMap (readValue m)) else none

/-- A decoder address is `base + offset` at 16 bits, unchecked (20_memory.md R41, R214). -/
def decoderAddress (base offset : BitVec 16) : BitVec 16 := base + offset

/-- The address of a decoder of a family. -/
def familyAddress (fam : Config.DecoderFamily) (offset : BitVec 16) : BitVec 16 :=
  decoderAddress (Config.decoderBase fam) offset

/-- The second exchange of `TOGGLEDIR`, after its query read the direction `d`; none when the query failed
(R211). -/
def toggleDirNext (addr : BitVec 16) (d : Option Byte) : Option PseudoOp :=
  d.map fun d => .setDir addr (if d = 1 then 2 else 1)

/-- The second exchange of `TOGGLEFUNC`, after its query read the level `l`; none when the query failed (R211). -/
def toggleFuncNext (addr : BitVec 16) (i : Byte) (l : Option Byte) : Option PseudoOp :=
  l.map fun l => .setFunc addr i (if l = 0 then 1 else 0)

/-- Every pseudo-operation: those that are one exchange, and the compositions (R210, R211). -/
inductive HostOp where
  | single (op : PseudoOp)
  /-- `TURNOUT`; without a duration the default hold duration counts -/
  | turnout (addr : BitVec 16) (pos : Byte) (dur : Option Nat)
  | toggleDir (addr : BitVec 16)
  | toggleFunc (addr : BitVec 16) (i : Byte)
deriving DecidableEq, Repr

/-- What one exchange came to: nothing when it failed, else the values read (R212). -/
abbrev Outcome := Option (List (BitVec 32))

/-- An exchange the host asks for, after a wait of its own in which the block takes no part (R210). -/
structure HostRequest where
  /-- the host's wait before it, in milliseconds -/
  wait : Nat
  /-- the exchange -/
  op : PseudoOp
deriving DecidableEq, Repr

/-- The command words of the exchange. -/
def HostRequest.words (q : HostRequest) : List CommandWord := commandWords q.op.exchange

/-- The byte that a query read; none when the query failed. -/
def queried (o : Outcome) : Option Byte := o.bind fun vs => vs.head?.map fun v => v.setWidth 8

/-- The exchange a pseudo-operation asks for after the exchanges that came to `os`; none when it has ended. `TURNOUT`
switches the accessory on, holds and switches it off (R210); a toggle queries and then issues the complement, and
ends when the query failed (R211). -/
def HostOp.next : HostOp → List Outcome → Option HostRequest
  | .single op, [] => some ⟨0, op⟩
  | .single _, _ => none
  | .turnout addr pos _, [] => some ⟨0, .setAcc addr pos Config.turnoutPower⟩
  | .turnout addr pos dur, [_] => some ⟨dur.getD Config.turnoutHold, .setAcc addr pos 0⟩
  | .turnout _ _ _, _ => none
  | .toggleDir addr, [] => some ⟨0, .getDir addr⟩
  | .toggleDir addr, [o] => (toggleDirNext addr (queried o)).map fun op => ⟨0, op⟩
  | .toggleDir _, _ => none
  | .toggleFunc addr i, [] => some ⟨0, .getFunc addr i⟩
  | .toggleFunc addr i, [o] => (toggleFuncNext addr i (queried o)).map fun op => ⟨0, op⟩
  | .toggleFunc _ _, _ => none

/-- The outcomes after one more exchange, whose `EXCH` answered `r` and left `m` in `M1`. -/
def HostOp.answered (h : HostOp) (os : List Outcome) (x : Response × Message) : List Outcome :=
  match h.next os with
  | some q => os ++ [q.op.outcome x.1 x.2]
  | none => os

/-- The outcomes of the exchanges of a pseudo-operation, from what each `EXCH` answered and left in `M1`. -/
def HostOp.outcomes (h : HostOp) (xs : List (Response × Message)) : List Outcome := xs.foldl h.answered []

/-- All values read, or nothing when one exchange failed (R212). -/
def allRead : List Outcome → Outcome
  | [] => some []
  | o :: os => o.bind fun vs => (allRead os).map fun ws => vs ++ ws

/-- The result of a pseudo-operation. -/
inductive HostResult where
  /-- it asks for one more exchange -/
  | unfinished
  /-- one of its exchanges answered `ok = 0`: the result is false and nothing is decoded (R211, R212) -/
  | failed
  /-- every exchange succeeded; the values read, in order -/
  | done (values : List (BitVec 32))
deriving DecidableEq, Repr

/-- The result of a pseudo-operation whose exchanges went as `xs` says (R211, R212). -/
def HostOp.result (h : HostOp) (xs : List (Response × Message)) : HostResult :=
  match h.next (h.outcomes xs), allRead (h.outcomes xs) with
  | some _, _ => .unfinished
  | none, none => .failed
  | none, some vs => .done vs

/-- What the reference software does about a rejected send, which an `EXCH` shows as `err = 1`: it switches track power
off, and stops (R212). -/
def sendFailureReaction (r : Response) : Option PseudoOp :=
  if r.err = causeCode .sendFailure then some (.power false) else none

/-- The big-endian pair at a payload index (20_memory.md R43). -/
def pairAt (m : Message) (k : Fin 7) : BitVec 16 := joinBytes m.data[pairHi k] m.data[pairLo k]

/-- Which request a message with `resp` clear is, by its code and the payload that sub-selects it
(30_encoding.md R77); none where the table has no such row. -/
def readRequest (m : Message) : Option PseudoOp :=
  if m.resp then none
  else
    match m.cmd.toNat, m.len.toNat with
    | 0x00, _ =>
      match m.data[4].toNat with
      | 0 => some (.power false)
      | 1 => some (.power true)
      | 2 => some .halt
      | 3 => some .estop
      | _ => none
    | 0x04, 6 => some (.setSpeed (pairAt m 2) (pairAt m 4))
    | 0x04, 4 => some (.getSpeed (pairAt m 2))
    | 0x05, 5 => some (.setDir (pairAt m 2) m.data[4])
    | 0x05, 4 => some (.getDir (pairAt m 2))
    | 0x06, 6 => some (.setFunc (pairAt m 2) m.data[4] m.data[5])
    | 0x06, 5 => some (.getFunc (pairAt m 2) m.data[4])
    | 0x07, _ => if m.data[6] = 1 then some (.rdCfg (pairAt m 2) (pairAt m 4)) else none
    | 0x08, _ => some (.wrCfg (pairAt m 2) (pairAt m 4) m.data[6])
    | 0x0B, _ => some (.setAcc (pairAt m 2) m.data[4] m.data[5])
    | 0x18, 0 => some .ping
    | _, _ => none

end Sys2Proof.Machine
end

