-- ==== Sys2Proof/Safety.lean ====
section
/-!
DEFINITION. What holds of the machine in every run: the invariant of its states, and when it is stuck.
-/

namespace Sys2Proof.Machine

/-- What every candidate of the arbiter looks like (43_negotiation.md R142). -/
def IsCandidate (c : BitVec 16) : Prop :=
  c &&& Config.hashOr = Config.hashOr ∧ c &&& ~~~(Config.hashAnd ||| Config.hashOr) = 0

/-- The arbiter is at work. -/
def Phase.Arbiter (p : Phase) : Prop := p = .ngDraw ∨ p = .ngSend ∨ p = .ngSettle ∨ p = .ngDrain

/-- The arbiter has drawn and probes its candidate. -/
def Phase.Probing (p : Phase) : Prop := p = .ngSend ∨ p = .ngSettle ∨ p = .ngDrain

/-- The invariant of the machine. -/
structure State.Inv (s : State) : Prop where
  /-- `len <= 8` in every message (10_state.md R12) -/
  lenM0 : s.m0.len ≤ 8
  lenM1 : s.m1.len ≤ 8
  lenScr : s.scr.len ≤ 8
  /-- `TXTLEN <= 35` (R25) -/
  textLen : s.txtlen ≤ 35
  /-- the scratch message has zero pad bytes (R13, R24) -/
  scrPad : ∀ k : Fin 8, s.scr.len.toNat ≤ k.val → s.scr.data[k] = 0
  /-- once active the block has an identity or is about to draw one (R17, R189) -/
  identity : s.active = true → s.hash ≠ 0 ∨ s.phase = .ngDraw
  /-- while it is probed `HASH` holds a candidate (R26, 43_negotiation.md R142) -/
  probing : s.phase.Probing → IsCandidate s.hash
  /-- `XERR` stays 0 throughout a negotiation (R21, 43_negotiation.md R146) -/
  arbiterXerr : s.phase.Arbiter → s.xerr = 0
  /-- in an exchange the pending code is none, or `SendFailure` with its sticky bit set (42_exchange.md R127) -/
  pollXerr : s.phase = .exPoll → s.xerr = 0 ∨ (s.xerr = 1 ∧ s.err.getLsbD 0 = true)
  /-- a halted block had a send rejected under the policy `HALT` (60_exceptions.md R226) -/
  halted : s.phase = .halted → s.xerr = 1 ∧ s.err.getLsbD 0 = true ∧ s.sfpolHalt = true

/-- It is the engine's turn in `s`, and `e` is the state its micro-step starts from: `s` itself when no turn is
scheduled, else `s` without the turn it uses up (notes/assumptions/2.md). -/
def State.EngineMoves (s e : State) : Prop :=
  (s.env.turns = [] ∧ e = s) ∨ ∃ ts, s.env.turns = .engine :: ts ∧ e = s.setTurns ts

/-- No step is left to make (60_exceptions.md R226). -/
def State.Stuck (s : State) : Prop := s.phase = .halted ∧ s.env.turns = []

end Sys2Proof.Machine
end

