-- ==== Sys2Proof/Certificates/Slice0/Obligations.lean ====
section
/-!
DEFINITION. The statements for the provers, one `def Obligations.<Name> : Prop` each. OBLIGATIONS.json says which
rule each one formalises. A statement about an instruction gives the whole next state, so that everything it does
not name is unchanged; `State.respond`, `State.raise`, `State.refuse` and the draws it names have statements of
their own.
-/

open Sys2Proof Sys2Proof.Machine

/-! ### Encodings -/

/-- `w` is the command word of `i`: encoded and decoded (30_encoding.md R70). -/
def CommandIs (i : Instr) (w : CommandWord) : Prop := encode i = .command w ∧ decode (.command w) = .ok i

/-- `a << 26`, the message register selector in a command word (R70). -/
def aField (a : MReg) : CommandWord := (mregBit a).zeroExtend 32 <<< 26

/-- `b << 25`, the second selector (R70). -/
def bField (b : MReg) : CommandWord := (mregBit b).zeroExtend 32 <<< 25

/-- `sel << 20`, the field selector or register number (R70). -/
def selField (sel : BitVec 5) : CommandWord := sel.zeroExtend 32 <<< 20

/-- Decoding the encoding of an instruction gives it back, every operand at every value (30_encoding.md R70, R74,
R77). -/
def Obligations.DecodeOfEncodeIsTheInstruction : Prop :=
  ∀ i : Instr, decode (encode i) = .ok i

/-- A word or frame that decodes is the encoding of what it decodes to: no bit of it is dropped (R70, R74,
R77). -/
def Obligations.DecodedWireIsItsEncoding : Prop :=
  ∀ (x : Wire) (i : Instr), decode x = .ok i → encode i = x

/-- No two rows of the table of R74 match one word. -/
def Obligations.CommandRowsAreDisjoint : Prop :=
  cwRows.Pairwise fun r q => ∀ w : CommandWord, ¬(w &&& r.mask = r.pattern ∧ w &&& q.mask = q.pattern)

/-- The worked encodings of R82, which the spec derives from R61, R70, R71 and R74. -/
def Obligations.WorkedEncodingsHold : Prop :=
  packId 0 0x18 false 0xDF24 = 0x0030DF24 ∧ packId 0 0x18 true 0xDF24 = 0x0031DF24 ∧
  packId 0 0x04 false 0xDF24 = 0x0008DF24 ∧ packId 7 0xFF true 0xFFFF = 0x0FFFFFFF ∧
  decode (.command 0x08000000) = .ok (.clear .m0) ∧
  decode (.command 0x11204007) = .ok (.ldf .m0 18 0x4007) ∧
  decode (.command 0x32000000) = .ok (.exch .m0 .m1)

/-- `PackId` is the `|` of the four shifted fields, equal to their sum, below `2^28`: the pattern
`0 ppp cccccccc r hhhhhhhhhhhhhhhh` (R61). -/
def Obligations.IdentifierPacksAsASum : Prop :=
  ∀ (p : BitVec 3) (c : BitVec 8) (r : Bool) (h : BitVec 16),
    packId p c r h = ((p.zeroExtend 29 <<< 25) ||| (c.zeroExtend 29 <<< 17) |||
      ((BitVec.ofBool r).zeroExtend 29 <<< 16) ||| h.zeroExtend 29) ∧
    (packId p c r h).toNat = p.toNat * 2 ^ 25 + c.toNat * 2 ^ 17 + r.toNat * 2 ^ 16 + h.toNat ∧
    (packId p c r h).toNat < 2 ^ 28 ∧
    packId p c r h = 0#1 ++ p ++ c ++ BitVec.ofBool r ++ h

/-- `UnpackId` takes its four bit fields and looks at no other bit; it recovers what `PackId` packed, and packing
what it took from an identifier with bit 28 clear gives that identifier (R62). -/
def Obligations.UnpackRecoversThePackedFields : Prop :=
  (∀ id : BitVec 29, idPrio id = id.extractLsb' 25 3 ∧ idCmd id = id.extractLsb' 17 8 ∧
      idResp id = id.getLsbD 16 ∧ idHash id = id.extractLsb' 0 16) ∧
  (∀ (p : BitVec 3) (c : BitVec 8) (r : Bool) (h : BitVec 16),
    idPrio (packId p c r h) = p ∧ idCmd (packId p c r h) = c ∧ idResp (packId p c r h) = r ∧
      idHash (packId p c r h) = h) ∧
  (∀ id : BitVec 29, id.getLsbD 28 = false → packId (idPrio id) (idCmd id) (idResp id) (idHash id) = id)

/-- Bit 28 is clear in every frame a step offers, and a received identifier with bit 28 flipped decodes to the same
message (R63). -/
def Obligations.Bit28IsSentClearAndIgnored : Prop :=
  (∀ (s t : State) (o : Offer), step s = .next t → t.env.offers = o :: s.env.offers →
    o.frame.id.getLsbD 28 = false) ∧
  (∀ f : Frame, decodeFrame { f with id := f.id ^^^ 0x10000000 } = decodeFrame f)

/-- What `EncodeFrame` and `DecodeFrame` put into each field (41_frame_io.md R113, R115). -/
def Obligations.FrameCodecFields : Prop :=
  (∀ m : Message, (encodeFrame m).id = packId m.prio m.cmd m.resp m.hash ∧ (encodeFrame m).ext = true ∧
    (encodeFrame m).dlen = m.len ∧
    ∀ k : Fin 8, (encodeFrame m).pay[k] = if k.val < m.len.toNat then m.data[k] else 0) ∧
  (∀ f : Frame, (decodeFrame f).prio = f.id.extractLsb' 25 3 ∧ (decodeFrame f).cmd = f.id.extractLsb' 17 8 ∧
    (decodeFrame f).resp = f.id.getLsbD 16 ∧ (decodeFrame f).hash = f.id.extractLsb' 0 16 ∧
    (decodeFrame f).len = (if f.dlen > 8 then 8 else f.dlen) ∧
    ∀ k : Fin 8, (decodeFrame f).data[k] = if k.val < (decodeFrame f).len.toNat then f.pay[k] else 0)

/-- The frame round trips of R116, which the spec derives from R113, R115 and R62. -/
def Obligations.FrameRoundTrips : Prop :=
  (∀ m : Message, m.len ≤ 8 → Message.SemEq (decodeFrame (encodeFrame m)) m ∧
    ∀ k : Fin 8, m.len.toNat ≤ k.val → (decodeFrame (encodeFrame m)).data[k] = 0) ∧
  (∀ f : Frame, f.id.getLsbD 28 = false → f.ext = true → f.dlen ≤ 8 →
    (∀ k : Fin 8, f.dlen.toNat ≤ k.val → f.pay[k] = 0) → encodeFrame (decodeFrame f) = f)

/-- Pad bytes reach neither the bus nor the text form: semantically equal messages give the same frame and the
same text (10_state.md R13). -/
def Obligations.PadBytesNeverShow : Prop :=
  ∀ m n : Message, Message.SemEq m n → encodeFrame m = encodeFrame n ∧ encodeText m = encodeText n

/-- `HexChar` and `HexVal` in numbers, and the order of the digits of `Hex` (44_text_codec.md R161). -/
def Obligations.HexDigitsFollowAscii : Prop :=
  (∀ d : BitVec 4, (hexChar d).toNat = if d.toNat < 10 then 0x30 + d.toNat else 0x41 + (d.toNat - 10)) ∧
  (∀ c : Byte, hexVal c =
    if 0x30 ≤ c.toNat ∧ c.toNat ≤ 0x39 then some (BitVec.ofNat 4 (c.toNat - 0x30))
    else if 0x41 ≤ c.toNat ∧ c.toNat ≤ 0x46 then some (BitVec.ofNat 4 (c.toNat - 0x41 + 10))
    else if 0x61 ≤ c.toNat ∧ c.toNat ≤ 0x66 then some (BitVec.ofNat 4 (c.toNat - 0x61 + 10))
    else none) ∧
  (∀ v : BitVec 16, hexWord v = [hexChar (v.extractLsb' 12 4), hexChar (v.extractLsb' 8 4),
    hexChar (v.extractLsb' 4 4), hexChar (v.extractLsb' 0 4)]) ∧
  (∀ b : Byte, hexByte b = [hexChar (b.extractLsb' 4 4), hexChar (b.extractLsb' 0 4)])

/-- The text form, position by position (30_encoding.md R66). -/
def Obligations.TextFormByPosition : Prop :=
  ∀ m : Message, m.len ≤ 8 →
    (encodeText m).length = 11 + 3 * m.len.toNat ∧
    (encodeText m)[0]? = some (hexChar (m.hash.extractLsb' 12 4)) ∧
    (encodeText m)[1]? = some (hexChar (m.hash.extractLsb' 8 4)) ∧
    (encodeText m)[2]? = some (hexChar (m.hash.extractLsb' 4 4)) ∧
    (encodeText m)[3]? = some (hexChar (m.hash.extractLsb' 0 4)) ∧
    (encodeText m)[4]? = some 0x20 ∧
    (encodeText m)[5]? = some (if m.resp then 0x52 else 0x20) ∧
    (encodeText m)[6]? = some 0x20 ∧
    (encodeText m)[7]? = some (hexChar (m.cmd.extractLsb' 4 4)) ∧
    (encodeText m)[8]? = some (hexChar (m.cmd.extractLsb' 0 4)) ∧
    (encodeText m)[9]? = some 0x20 ∧
    (encodeText m)[10]? = some (hexChar m.len) ∧
    ∀ k : Fin 8, k.val < m.len.toNat →
      (encodeText m)[11 + 3 * k.val]? = some 0x20 ∧
      (encodeText m)[12 + 3 * k.val]? = some (hexChar (m.data[k].extractLsb' 4 4)) ∧
      (encodeText m)[13 + 3 * k.val]? = some (hexChar (m.data[k].extractLsb' 0 4))

/-- `DecodeText` succeeds with a message exactly when the string has the header, every digit it needs, a length
digit of at most 8 and the data bytes it declares; every field of the message is then the one R164 gives, and on
every other string it fails (R164). -/
def Obligations.TextDecodesExactlyByPosition : Prop :=
  ∀ (cs : List Byte) (m : Message), decodeText cs = some m ↔
    11 ≤ cs.length ∧
    (∃ h3 h2 h1 h0 c1 c0 : BitVec 4,
      cs[0]?.bind hexVal = some h3 ∧ cs[1]?.bind hexVal = some h2 ∧ cs[2]?.bind hexVal = some h1 ∧
      cs[3]?.bind hexVal = some h0 ∧ cs[7]?.bind hexVal = some c1 ∧ cs[8]?.bind hexVal = some c0 ∧
      m.hash.toNat = h3.toNat * 4096 + h2.toNat * 256 + h1.toNat * 16 + h0.toNat ∧
      m.cmd.toNat = c1.toNat * 16 + c0.toNat) ∧
    cs[10]?.bind hexVal = some m.len ∧ m.len ≤ 8 ∧ 11 + 3 * m.len.toNat ≤ cs.length ∧
    m.prio = 0 ∧ (m.resp = true ↔ cs[5]? = some 0x52) ∧
    (∀ k : Fin 8, k.val < m.len.toNat → ∃ d1 d0 : BitVec 4,
      cs[12 + 3 * k.val]?.bind hexVal = some d1 ∧ cs[13 + 3 * k.val]?.bind hexVal = some d0 ∧
      m.data[k].toNat = d1.toNat * 16 + d0.toNat) ∧
    (∀ k : Fin 8, m.len.toNat ≤ k.val → m.data[k] = 0)

/-- The text round trips of R167, which the spec derives from R160 and R164. A message survives the text form but for
its priority and its pad bytes; and a
string that decodes comes back with its hexadecimal digits in upper case, its separators as spaces, its response
position as `'R'` or space and nothing after its last data byte. -/
def Obligations.TextRoundTrips : Prop :=
  (∀ m : Message, m.len ≤ 8 → ∃ n : Message, decodeText (encodeText m) = some n ∧ n.prio = 0 ∧
    n.hash = m.hash ∧ n.resp = m.resp ∧ n.cmd = m.cmd ∧ n.len = m.len ∧
    (∀ k : Fin 8, k.val < m.len.toNat → n.data[k] = m.data[k]) ∧
    (∀ k : Fin 8, m.len.toNat ≤ k.val → n.data[k] = 0)) ∧
  (∀ (cs : List Byte) (m : Message), decodeText cs = some m →
    encodeText m = (List.range (11 + 3 * m.len.toNat)).map fun i =>
      if i = 5 then (if cs[5]? = some 0x52 then 0x52 else 0x20)
      else if i = 4 ∨ i = 6 ∨ i = 9 ∨ (11 ≤ i ∧ (i - 11) % 3 = 0) then 0x20
      else
        let c := cs.getD i 0
        if 0x61 ≤ c ∧ c ≤ 0x66 then c - 0x20 else c)

/-- The surrounding software's requests are told apart by code and payload (46_command_layouts.md R195, 30_encoding.md
R77): reading the request message of a pseudo-operation gives it back. -/
def Obligations.RequestLayoutsAreReadBack : Prop :=
  ∀ (op : PseudoOp) (hash : BitVec 16), readRequest (op.request hash) = some op

/-- The command words of a pseudo-operation before its exchange build its request message in `M0`, each answered
`(1, 0, 0)`, whatever the register held; `M1` is not touched (46_command_layouts.md R195 to R206, 40_message_ops.md
R92). The payload of each operation is `PseudoOp.bytes`, transcribed from R195 (notes/assumptions/20.md). -/
def Obligations.LoadsBuildTheRequest : Prop :=
  ∀ (op : PseudoOp) (s : State), ∃ t : State, execList op.build s = .next t ∧ t.m0 = op.request 0 ∧ t.m1 = s.m1 ∧
    t.hash = s.hash ∧ t.err = s.err ∧
    t.env.responses = List.replicate op.build.length ⟨true, 0, 0⟩ ++ s.env.responses

/-! ### Errors, responses, draws -/

/-- The table of causes (60_exceptions.md R220) and what raising one does: its sticky bit is set, no bit is
cleared, nothing else changes (R222, 10_state.md R18). -/
def Obligations.RaiseSetsOneStickyBit : Prop :=
  (∀ e : Cause, (causeCode e, causeBit e) = match e with
    | .sendFailure => (1, 0) | .responseTimeout => (2, 1) | .decodeFailure => (3, 2)
    | .illegalCommand => (4, 3) | .badArgument => (5, 4) | .badState => (6, 5)) ∧
  (∀ (s : State) (e : Cause), s.raise e = { s with err := (s.raise e).err } ∧
    ∀ i : Nat, i < 6 → (s.raise e).err.getLsbD i = (s.err.getLsbD i || i == causeBit e))

/-- A response is delivered once, `PHASE` becomes `IDLE`, nothing else changes; a refused word raises its cause and
answers `(0, code, 0)` (30_encoding.md R73, 60_exceptions.md R222). That the delivered response is recorded, and waits in
`env.pending` behind those the host has not taken, is the model's choice (notes/assumptions/15.md). -/
def Obligations.RespondDeliversOneResponse : Prop :=
  (∀ (s : State) (ok : Bool) (err : BitVec 3) (val : BitVec 32), s.respond ok err val =
    { s with phase := .idle, env := { s.env with responses := ⟨ok, err, val⟩ :: s.env.responses,
                                                 pending := s.env.pending ++ [⟨ok, err, val⟩] } }) ∧
  (∀ (s : State) (e : Cause), s.refuse e = (s.raise e).respond false (causeCode e) 0)

/-- A draw takes the next answer already known and leaves the rest for later (41_frame_io.md R110, R111;
60_exceptions.md R240; 43_negotiation.md R141; 20_memory.md R51). That known answers stand in lists is the model's
choice (notes/assumptions/3.md). -/
def Obligations.DrawsTakeTheNextAnswer : Prop :=
  (∀ (s : State) (b : Bool) (bs : List Bool) (f : Frame), s.env.tx = b :: bs →
    s.txAnswer = b ∧ (s.offer f).env.tx = bs ∧ (s.offer f).env.offers = ⟨f, b⟩ :: s.env.offers) ∧
  (∀ (s : State) (r : Option Frame) (rs : List (Option Frame)), s.env.rx = r :: rs →
    s.rxAnswer = r ∧ s.polled.env.rx = rs) ∧
  (∀ (s : State) (d : BitVec 32) (ds : List (BitVec 32)), s.env.clk = d :: ds →
    s.clock = s.env.now + d ∧ s.clockRead.env.now = s.env.now + d ∧ s.clockRead.env.clk = ds) ∧
  (∀ (s : State) (v : BitVec 16) (vs : List (BitVec 16)), s.env.rnd = v :: vs →
    s.rndValue = v ∧ s.rndRead.env.rnd = vs)

/-! ### Message registers -/

/-- `CLEAR a` zeroes every field of `M[a]`, all eight data bytes included (40_message_ops.md R91). -/
def Obligations.ClearZeroesItsRegister : Prop :=
  (∀ a : MReg, CommandIs (.clear a) (0x08000000 ||| aField a)) ∧ ∀ s : State,
    exec (.clear .m0) s = .next ({ s with m0 := ⟨0, 0, false, 0, 0, Vector.replicate 8 0⟩ }.respond true 0 0) ∧
    exec (.clear .m1) s = .next ({ s with m1 := ⟨0, 0, false, 0, 0, Vector.replicate 8 0⟩ }.respond true 0 0)

/-- `LDF` loads the selected field or bytes and nothing else; an unknown selector or an immediate above the
field's maximum is refused (R93, R94, R95). -/
def Obligations.LdfLoadsTheSelectedField : Prop :=
  ∀ (a : MReg) (sel : BitVec 5) (imm : BitVec 16) (s : State),
    let loads (m : Message) : Prop := exec (.ldf a sel imm) s = .next ((s.setMsg a m).respond true 0 0)
    let refused : Prop := exec (.ldf a sel imm) s = .next (s.refuse .badArgument)
    CommandIs (.ldf a sel imm) (0x10000000 ||| aField a ||| selField sel ||| imm.zeroExtend 32) ∧
    (sel = 0 → if imm ≤ 7 then loads { s.msg a with prio := imm.setWidth 3 } else refused) ∧
    (sel = 1 → if imm ≤ 255 then loads { s.msg a with cmd := imm.setWidth 8 } else refused) ∧
    (sel = 2 → if imm ≤ 1 then loads { s.msg a with resp := imm.getLsbD 0 } else refused) ∧
    (sel = 3 → loads { s.msg a with hash := imm }) ∧
    (sel = 4 → if imm ≤ 8 then loads { s.msg a with len := imm.setWidth 4 } else refused) ∧
    (∀ k : Fin 8, sel.toNat = 8 + k.val →
      if imm ≤ 255 then loads { s.msg a with data := (s.msg a).data.set k (imm.setWidth 8) } else refused) ∧
    (∀ (k : Nat) (hk : k < 7), sel.toNat = 16 + k →
      loads { s.msg a with data := ((s.msg a).data.set k (imm.extractLsb' 8 8)).set (k + 1) (imm.setWidth 8) }) ∧
    ((5 ≤ sel ∧ sel ≤ 7) ∨ 23 ≤ sel → refused)

/-- `RDF` answers the selected field, zero-extended, a pair big-endian; it changes no register, and an unknown
selector is refused (R97, R98). -/
def Obligations.RdfAnswersTheSelectedField : Prop :=
  ∀ (a : MReg) (sel : BitVec 5) (s : State),
    let answers (v : BitVec 32) : Prop := exec (.rdf a sel) s = .next (s.respond true 0 v)
    CommandIs (.rdf a sel) (0x18000000 ||| aField a ||| selField sel) ∧
    (sel = 0 → answers ((s.msg a).prio.zeroExtend 32)) ∧
    (sel = 1 → answers ((s.msg a).cmd.zeroExtend 32)) ∧
    (sel = 2 → answers (if (s.msg a).resp then 1 else 0)) ∧
    (sel = 3 → answers ((s.msg a).hash.zeroExtend 32)) ∧
    (sel = 4 → answers ((s.msg a).len.zeroExtend 32)) ∧
    (∀ k : Fin 8, sel.toNat = 8 + k.val → answers ((s.msg a).data[k].zeroExtend 32)) ∧
    (∀ (k : Nat) (hk : k < 7), sel.toNat = 16 + k →
      answers (BitVec.ofNat 32 ((s.msg a).data[k].toNat * 256 + (s.msg a).data[k + 1].toNat))) ∧
    ((5 ≤ sel ∧ sel ≤ 7) ∨ 23 ≤ sel → exec (.rdf a sel) s = .next (s.refuse .badArgument))

/-- What `LDF` loaded, `RDF` of the same selector answers (R95, R98). -/
def Obligations.RdfReadsWhatLdfLoaded : Prop :=
  ∀ (a : MReg) (sel : BitVec 5) (imm : BitVec 16) (s : State) (f : Field), fieldOf sel = some f →
    imm.toNat ≤ f.max → ∃ t : State, exec (.ldf a sel imm) s = .next t ∧
      exec (.rdf a sel) t = .next (t.respond true 0 (imm.zeroExtend 32))

/-! ### Frame input and output -/

/-- `SEND a` writes the stamp back, offers the frame of the stamped message once, and answers by the transport's
answer with the identifier as `val`; a rejection sets `E_SEND` (41_frame_io.md R112). -/
def Obligations.SendStampsOffersAndAnswers : Prop :=
  ∀ (a : MReg) (s : State),
    let m : Message := { s.msg a with hash := s.hash }
    let f : Frame := encodeFrame m
    let s1 : State := (s.setMsg a m).offer f
    CommandIs (.send a) (0x20000000 ||| aField a) ∧
    (s.txAnswer = true → exec (.send a) s = .next (s1.respond true 0 (f.id.zeroExtend 32))) ∧
    (s.txAnswer = false →
      exec (.send a) s = .next ((s1.raise .sendFailure).respond false 1 (f.id.zeroExtend 32)))

/-- `RECV a` polls once; a frame overwrites the whole register and is answered with its raw identifier, no frame
alters nothing and is no error (R114). -/
def Obligations.RecvPollsOnce : Prop :=
  ∀ (a : MReg) (s : State), CommandIs (.recv a) (0x28000000 ||| aField a) ∧
    (s.rxAnswer = none → exec (.recv a) s = .next (s.polled.respond false 0 0)) ∧
    (∀ f : Frame, s.rxAnswer = some f →
      exec (.recv a) s = .next ((s.polled.setMsg a (decodeFrame f)).respond true 0 (f.id.zeroExtend 32)))

/-! ### The exchange sequencer -/

/-- `EXCH a, b`, first micro-step: the captures, the stamp, the offer; then by the transport's answer and the
policy (42_exchange.md R126, R127). -/
def Obligations.ExchSendsAndStartsPolling : Prop :=
  ∀ (a b : MReg) (s : State),
    let m : Message := { s.msg a with hash := s.hash }
    let s1 : State :=
      { s.clockRead with t0 := s.clock, xcmd := (s.msg a).cmd, xdst := b, xerr := 0 }.setMsg a m
    let s2 : State := s1.offer (encodeFrame m)
    CommandIs (.exch a b) (0x30000000 ||| aField a ||| bField b) ∧
    (s1.txAnswer = true → exec (.exch a b) s = .next { s2 with phase := .exPoll }) ∧
    (s1.txAnswer = false → s.cfg.getLsbD 2 = false →
      exec (.exch a b) s = .next { s2.raise .sendFailure with xerr := 1, phase := .exPoll }) ∧
    (s1.txAnswer = false → s.cfg.getLsbD 2 = true →
      exec (.exch a b) s = .next { s2.raise .sendFailure with xerr := 1, phase := .halted })

/-- The `EX_POLL` micro-step: the timeout test first, then one poll; a match is copied whole and answered, every
other frame is only decoded into `SCR` (R128). -/
def Obligations.ExPollMicroStep : Prop :=
  ∀ s e : State, s.EngineMoves e → s.phase = .exPoll →
    let e1 := e.clockRead
    let expired := s.timeout.toNat ≤ (e.clock - s.t0).toNat
    (expired → step s = .next ((e1.raise .responseTimeout).respond false
      (if s.xerr ≠ 0 then s.xerr else 2) 0)) ∧
    (¬expired → e1.rxAnswer = none → step s = .next e1.polled) ∧
    (¬expired → ∀ f : Frame, e1.rxAnswer = some f →
      let m := decodeFrame f
      let e2 : State := { e1.polled with scr := m }
      (m.cmd = s.xcmd ∧ m.resp = true →
        step s = .next ((e2.setMsg s.xdst m).respond true s.xerr (f.id.zeroExtend 32))) ∧
      (¬(m.cmd = s.xcmd ∧ m.resp = true) → step s = .next e2))

/-- While the budget lasts, the exchange passes over every answer that does not match and ends with the first
that does: that message is in `M[XDST]` and its identifier is the response (R128, R131). That the answers and clock reads
to come stand in lists is the model's choice (notes/assumptions/3.md, 4.md). -/
def Obligations.ExchangeEndsWithTheFirstMatch : Prop :=
  ∀ (s : State) (rs : List (Option Frame)) (f : Frame) (rest : List (Option Frame)),
    s.phase = .exPoll → s.env.turns = [] → s.env.rx = rs ++ some f :: rest →
    s.env.clk.length = rs.length + 1 →
    (∀ j, j ≤ rs.length → (s.env.now + (s.env.clk.take (j + 1)).sum - s.t0).toNat < s.timeout.toNat) →
    (∀ g, some g ∈ rs → ¬((decodeFrame g).cmd = s.xcmd ∧ (decodeFrame g).resp = true)) →
    (decodeFrame f).cmd = s.xcmd → (decodeFrame f).resp = true →
    ∃ t : State, Sys2Proof.core.run (rs.length + 1) s = .next t ∧ t.phase = .idle ∧
      t.msg s.xdst = decodeFrame f ∧ (∀ b, b ≠ s.xdst → t.msg b = s.msg b) ∧ t.err = s.err ∧
      t.env.rx = rest ∧ t.env.responses = ⟨true, s.xerr, f.id.zeroExtend 32⟩ :: s.env.responses

/-! ### The identity arbiter -/

/-- `NEGOTIATE` starts the arbiter and touches nothing but `XERR` and `PHASE` (43_negotiation.md R140). -/
def Obligations.NegotiateStartsTheArbiter : Prop :=
  CommandIs .negotiate 0x38000000 ∧ ∀ s : State, exec .negotiate s = .next { s with xerr := 0, phase := .ngDraw }

/-- `NG_DRAW`: the masked draw becomes `HASH` (R142). -/
def Obligations.NgDrawAdoptsTheCandidate : Prop :=
  ∀ s e : State, s.EngineMoves e → s.phase = .ngDraw →
    step s = .next { e.rndRead with hash := (e.rndValue &&& Config.hashAnd) ||| Config.hashOr, phase := .ngSend }

/-- Every candidate has the pattern's bits, no bit outside the mask and the pattern, and is not 0 (R142). -/
def Obligations.CandidatesLookAlike : Prop :=
  ∀ r : BitVec 16,
    let c := candidate Config.hashAnd Config.hashOr r
    c &&& Config.hashOr = Config.hashOr ∧ c &&& ~~~(Config.hashAnd ||| Config.hashOr) = 0 ∧ c ≠ 0

/-- `NG_SEND`: the ping is built in `SCR`, stamped with the candidate and offered; a rejection only sets `E_SEND`;
the settle interval starts after the send (R143). -/
def Obligations.NgSendOffersThePing : Prop :=
  ∀ s e : State, s.EngineMoves e → s.phase = .ngSend →
    let ping : Message := ⟨0, 0x18, false, s.hash, 0, Vector.replicate 8 0⟩
    let e1 : State := { e with scr := ping }.offer (encodeFrame ping)
    let e2 : State := if e.txAnswer then e1 else e1.raise .sendFailure
    step s = .next { e2.clockRead with t0 := e2.clock, contested := false, phase := .ngSettle }

/-- `NG_SETTLE`: the clock is read; when the interval is over the drain starts, else nothing else happens (R144). -/
def Obligations.NgSettleWaits : Prop :=
  ∀ s e : State, s.EngineMoves e → s.phase = .ngSettle →
    step s = .next (if Config.settleMs.toNat ≤ (e.clock - s.t0).toNat then { e.clockRead with phase := .ngDrain }
      else e.clockRead)

/-- `NG_DRAIN`: one poll; a frame is decoded into `SCR` and its hash compared, no frame decides (R145). -/
def Obligations.NgDrainMicroStep : Prop :=
  ∀ s e : State, s.EngineMoves e → s.phase = .ngDrain →
    (∀ f : Frame, e.rxAnswer = some f → step s = .next { e.polled with
      scr := decodeFrame f, contested := s.contested || (decodeFrame f).hash == s.hash }) ∧
    (e.rxAnswer = none → s.contested = true → step s = .next { e.polled with phase := .ngDraw }) ∧
    (e.rxAnswer = none → s.contested = false →
      step s = .next (e.polled.respond true 0 (s.hash.zeroExtend 32)))

/-- A whole drain pass: whatever frames wait, they are all taken; then the candidate is accepted and answered if
none of them carried it, else the arbiter draws again (R145, R147). That the answers to come stand in a list is the
model's choice (notes/assumptions/3.md). -/
def Obligations.DrainPassDecides : Prop :=
  ∀ (s : State) (fs : List Frame) (rest : List (Option Frame)),
    s.phase = .ngDrain → s.env.turns = [] → s.contested = false → s.env.rx = fs.map some ++ none :: rest →
    ∃ t : State, Sys2Proof.core.run (fs.length + 1) s = .next t ∧ t.hash = s.hash ∧ t.env.rx = rest ∧
      t.m0 = s.m0 ∧ t.m1 = s.m1 ∧
      ((∀ f ∈ fs, (decodeFrame f).hash ≠ s.hash) → t.phase = .idle ∧
        t.env.responses = ⟨true, 0, s.hash.zeroExtend 32⟩ :: s.env.responses) ∧
      ((∃ f ∈ fs, (decodeFrame f).hash = s.hash) → t.phase = .ngDraw ∧ t.env.responses = s.env.responses)

/-- No micro-step of the arbiter touches the host's messages, its budget, its flags, its text or `ACTIVE`
(R143, R147). -/
def Obligations.ArbiterLeavesTheHostsRegisters : Prop :=
  ∀ s e t : State, s.EngineMoves e → s.phase.Arbiter → step s = .next t →
    t.m0 = s.m0 ∧ t.m1 = s.m1 ∧ t.timeout = s.timeout ∧ t.cfg = s.cfg ∧ t.active = s.active ∧
    t.txt = s.txt ∧ t.txtlen = s.txtlen ∧ t.xcmd = s.xcmd ∧ t.xdst = s.xdst ∧ t.xerr = s.xerr ∧
    t.env.port = s.env.port

/-! ### Text operations -/

/-- `TXENC a`: the text form goes to the front of `TXT`, the bytes behind it stay, `TXTLEN` and `val` are
`11 + 3 * len` (44_text_codec.md R162). -/
def Obligations.TxencWritesTheTextForm : Prop :=
  (∀ a : MReg, CommandIs (.txenc a) (0x80000000 ||| aField a)) ∧ ∀ (a : MReg) (s : State), (s.msg a).len ≤ 8 →
    let n := 11 + 3 * (s.msg a).len.toNat
    ∃ txt : TextBuf,
      exec (.txenc a) s = .next ({ s with txt := txt, txtlen := BitVec.ofNat 6 n }.respond true 0
        (BitVec.ofNat 32 n)) ∧
      (BitVec.ofNat 6 n).toNat = n ∧
      (∀ i : Fin 35, i.val < n → some txt[i] = (encodeText (s.msg a))[i.val]?) ∧
      (∀ i : Fin 35, n ≤ i.val → txt[i] = s.txt[i])

/-- `TXDEC a`: the decoded message is written whole; on failure the register is cleared and `DecodeFailure`
answered; the buffer is not changed (R165, R166). -/
def Obligations.TxdecWritesOrClears : Prop :=
  ∀ (a : MReg) (s : State),
    let string := s.txt.toList.take s.txtlen.toNat
    CommandIs (.txdec a) (0x88000000 ||| aField a) ∧
    (∀ m : Message, decodeText string = some m →
      exec (.txdec a) s = .next ((s.setMsg a m).respond true 0 0)) ∧
    (decodeText string = none → exec (.txdec a) s =
      .next (((s.setMsg a ⟨0, 0, false, 0, 0, Vector.replicate 8 0⟩).raise .decodeFailure).respond false 3 0))

/-- `LDT`, `RDT` and `SETTL` act on one character or on the length, and refuse a position above 34 or a length above
35; the bytes they do not name stay (R168, R169, R170). -/
def Obligations.TextBufferIsMovedByCharacter : Prop :=
  (∀ (idx : BitVec 6) (ch : Byte) (s : State),
    CommandIs (.ldt idx ch) (0x90000000 ||| idx.zeroExtend 32 <<< 8 ||| ch.zeroExtend 32) ∧
    (∀ h : idx.toNat < 35,
      exec (.ldt idx ch) s = .next ({ s with txt := s.txt.set idx.toNat ch }.respond true 0 0)) ∧
    (34 < idx.toNat → exec (.ldt idx ch) s = .next (s.refuse .badArgument))) ∧
  (∀ (idx : BitVec 6) (s : State),
    CommandIs (.rdt idx) (0x98000000 ||| idx.zeroExtend 32 <<< 8) ∧
    (∀ h : idx.toNat < 35, exec (.rdt idx) s = .next (s.respond true 0 (s.txt[idx.toNat].zeroExtend 32))) ∧
    (34 < idx.toNat → exec (.rdt idx) s = .next (s.refuse .badArgument))) ∧
  (∀ (n : BitVec 6) (s : State),
    CommandIs (.settl n) (0xA0000000 ||| n.zeroExtend 32) ∧
    (n.toNat ≤ 35 → exec (.settl n) s = .next ({ s with txtlen := n }.respond true 0 0)) ∧
    (35 < n.toNat → exec (.settl n) s = .next (s.refuse .badArgument)))

/-! ### System operations -/

/-- `NOP` only responds; `SETTMO`, `SETCFG` and `CLRERR` write their one register, `CLRERR` clearing the bits of its
mask and no other (45_system_ops.md R180, R185, R186, R188). -/
def Obligations.SystemOpsWriteTheirOneRegister : Prop :=
  ∀ s : State,
    CommandIs .nop 0x00000000 ∧ exec .nop s = .next (s.respond true 0 0) ∧
    (∀ imm : BitVec 16, CommandIs (.settmo imm) (0x50000000 ||| imm.zeroExtend 32) ∧
      exec (.settmo imm) s = .next ({ s with timeout := imm }.respond true 0 0)) ∧
    (∀ cfg : BitVec 3, CommandIs (.setcfg cfg) (0x58000000 ||| cfg.zeroExtend 32) ∧
      exec (.setcfg cfg) s = .next ({ s with cfg := cfg }.respond true 0 0)) ∧
    (∀ mask : BitVec 6, CommandIs (.clrerr mask) (0x68000000 ||| mask.zeroExtend 32) ∧
      ∃ err : BitVec 6, exec (.clrerr mask) s = .next ({ s with err := err }.respond true 0 0) ∧
      ∀ i : Nat, err.getLsbD i = (s.err.getLsbD i && !mask.getLsbD i))

/-- `ACTIVATE` sets `ACTIVE`, and runs the arbiter exactly when `HASH = 0` (R183). -/
def Obligations.ActivateNegotiatesOnlyWithoutHash : Prop :=
  CommandIs .activate 0x40000000 ∧ ∀ s : State,
    (s.hash = 0 → exec .activate s = .next { s with active := true, xerr := 0, phase := .ngDraw }) ∧
    (s.hash ≠ 0 → exec .activate s =
      .next ({ s with active := true, xerr := 0 }.respond true 0 (s.hash.zeroExtend 32)))

/-- `SETHASH imm` assigns any value during construction and is refused afterwards (R184). -/
def Obligations.SethashOnlyDuringConstruction : Prop :=
  ∀ (imm : BitVec 16) (s : State), CommandIs (.sethash imm) (0x48000000 ||| imm.zeroExtend 32) ∧
    (s.active = false → exec (.sethash imm) s = .next ({ s with hash := imm }.respond true 0 0)) ∧
    (s.active = true → exec (.sethash imm) s = .next (s.refuse .badState))

/-- `RDSR sel` answers the register that the number names and changes nothing; numbers above 5 are refused (R187,
10_state.md R27). -/
def Obligations.RdsrAnswersTheRegister : Prop :=
  ∀ (sel : BitVec 5) (s : State),
    let answers (v : BitVec 32) : Prop := exec (.rdsr sel) s = .next (s.respond true 0 v)
    CommandIs (.rdsr sel) (0x60000000 ||| selField sel) ∧
    (sel = 0 → answers (s.hash.zeroExtend 32)) ∧
    (sel = 1 → answers (s.timeout.zeroExtend 32)) ∧
    (sel = 2 → answers (s.cfg.zeroExtend 32)) ∧
    (sel = 3 → answers (s.status.zeroExtend 32)) ∧
    (sel = 4 → answers (s.err.zeroExtend 32)) ∧
    (sel = 5 → answers (s.txtlen.zeroExtend 32)) ∧
    (5 < sel → exec (.rdsr sel) s = .next (s.refuse .badArgument))

/-- `STATUS`, the level outputs and `cmd_ready` as functions of state (10_state.md R19, R32, 30_encoding.md R72). -/
def Obligations.StatusAndOutputsAreViews : Prop :=
  ∀ s : State,
    (s.status.getLsbD 0 = true ↔ s.hash ≠ 0) ∧ s.status.getLsbD 1 = s.active ∧
    (s.outputs.busyO = true ↔ s.phase ≠ .idle ∧ s.phase ≠ .halted) ∧
    (s.outputs.haltedO = true ↔ s.phase = .halted) ∧
    (s.outputs.estopReqO = true ↔ s.phase = .halted) ∧
    s.outputs.identO = s.status.getLsbD 0 ∧
    s.outputs.debugO = s.cfg.getLsbD 0 ∧ s.outputs.loopbackO = s.cfg.getLsbD 1 ∧
    (s.outputs.cmdReady = true ↔ s.phase = .idle)

/-! ### Protocol command codes -/

/-- The eight rows of the opcode table that are protocol command codes, as instruction and code (R77). -/
def busRows (g : BusArgs) : List (Instr × Byte) :=
  [(.busSystem g, 0x00), (.busSpeed g, 0x04), (.busDirection g, 0x05), (.busFunction g, 0x06),
   (.busReadConfig g, 0x07), (.busWriteConfig g, 0x08), (.busAccessory g, 0x0B), (.busPing g, 0x18)]

/-- A frame with a listed code reaches the transport with every field as it is and changes nothing in the block
(30_encoding.md R76, R78). That the arrival is the row's meaning is the model's reading
(notes/assumptions/1.md). -/
def Obligations.BusFrameReachesTheTransport : Prop :=
  ∀ (g : BusArgs) (s : State) (i : Instr) (c : Byte), (i, c) ∈ busRows g →
    ∃ f : Frame, exec i s = .next { s with env := { s.env with rx := s.env.rx ++ [some f] } } ∧
      idBit28 f.id = g.bit28 ∧ idPrio f.id = g.prio ∧ idCmd f.id = c ∧ idResp f.id = g.resp ∧
      idHash f.id = g.hash ∧ f.ext = g.ext ∧ f.dlen = g.dlen ∧ f.pay = g.pay

/-- A frame with a listed code, once it has arrived at a transport with no earlier answer known, is what the next
`RECV` stores: the block decodes no code and filters none (R78, 41_frame_io.md R114, R119;
notes/assumptions/1.md). -/
def Obligations.RecvStoresTheArrivedBusFrame : Prop :=
  ∀ (g : BusArgs) (s : State) (a : MReg) (i : Instr) (c : Byte), (i, c) ∈ busRows g → s.env.rx = [] →
    ∃ t u : State, exec i s = .next t ∧ exec (.recv a) t = .next u ∧ u.env.rx = [] ∧
      (u.msg a).prio = g.prio ∧ (u.msg a).cmd = c ∧ (u.msg a).resp = g.resp ∧ (u.msg a).hash = g.hash ∧
      (u.msg a).len = (if 8 < g.dlen then 8 else g.dlen) ∧
      (∀ k : Fin 8, (u.msg a).data[k] = if k.val < (u.msg a).len.toNat then g.pay[k] else 0)

/-! ### Steps -/

/-- A step runs the decoded instruction: the word at the port of an idle block, or the frame of a bus turn, with
nothing around it but the word or the turn used up; and `withFetchWord` places a word so that the next step runs it
(30_encoding.md R72). The turns, the list of words at the port, the wait at an empty port as a step without change, and
the placing are the model's choices (notes/assumptions/2.md, 5.md, 6.md). So are the two clauses on bus turns: that a frame
of a listed code runs its row as an arrival, and that an arriving frame of any code is put behind the answers already
known (notes/assumptions/1.md); of these R76 and R78 say only that a frame is carried unchanged. -/
def Obligations.StepRunsTheDecodedInstruction : Prop :=
  (∀ (s e : State) (w : CommandWord) (ws : List CommandWord) (i : Instr), s.EngineMoves e → s.phase = .idle →
    s.env.port = w :: ws → decode (.command w) = .ok i → step s = exec i (e.setPort ws)) ∧
  (∀ s e : State, s.EngineMoves e → s.phase = .idle → s.env.port = [] → step s = .next e) ∧
  (∀ (s : State) (f : Frame) (ts : List Turn) (i : Instr), s.env.turns = .bus f :: ts →
    decode (.frame f) = .ok i → step s = exec i (s.setTurns ts)) ∧
  (∀ (s : State) (f : Frame) (ts : List Turn) (x : DecodeError), s.env.turns = .bus f :: ts →
    decode (.frame f) = .error x →
    step s = .next { s with env := { s.env with turns := ts, rx := s.env.rx ++ [some f] } }) ∧
  (∀ (s : State) (w : CommandWord) (i : Instr), decode (.command w) = .ok i →
    step (s.withFetchWord 32 w.toNat) = exec i (s.setPhase .idle))

/-- A word that matches no row is taken and refused with code 4, changing nothing but `E_ILLEGAL`; every word with
an unlisted operation code is such a word (30_encoding.md R75, 60_exceptions.md R223). -/
def Obligations.UnmatchedWordsAreIllegal : Prop :=
  (∀ (s e : State) (w : CommandWord) (ws : List CommandWord), s.EngineMoves e → s.phase = .idle →
    s.env.port = w :: ws → (∀ r ∈ cwRows, w &&& r.mask ≠ r.pattern) →
    step s = .next ({ e.setPort ws with err := s.err ||| 8 }.respond false 4 0)) ∧
  (∀ w : CommandWord,
    (w.extractLsb' 27 5 = 0x0E ∨ w.extractLsb' 27 5 = 0x0F ∨ 0x15 ≤ w.extractLsb' 27 5) →
    ∀ r ∈ cwRows, w &&& r.mask ≠ r.pattern)

/-- While the block is not idle no step takes a word from the port (R72, 42_exchange.md R132, 43_negotiation.md
R149). That the words waiting there survive a reset turn is the model's choice (notes/assumptions/18.md), and so is that
only a turn in which the host presents a word adds it, behind the others (notes/assumptions/2.md, 5.md). -/
def Obligations.BusyBlockTakesNoWord : Prop :=
  ∀ s t : State, s.phase ≠ .idle → step s = .next t →
    (∀ w ts, s.env.turns = .outside (.hostPresents w) :: ts → t.env.port = s.env.port ++ [w]) ∧
    ((∀ w ts, s.env.turns ≠ .outside (.hostPresents w) :: ts) → t.env.port = s.env.port)

/-- A step delivers at most one response, after which the block is idle, and makes at most one offer to the
transport, always of an encoded message (30_encoding.md R73, 41_frame_io.md R110, R113). -/
def Obligations.StepRespondsAndOffersAtMostOnce : Prop :=
  ∀ s t : State, step s = .next t →
    (t.env.responses = s.env.responses ∨ ∃ r, t.env.responses = r :: s.env.responses ∧ t.phase = .idle) ∧
    (t.env.offers = s.env.offers ∨ ∃ m acc, t.env.offers = ⟨encodeFrame m, acc⟩ :: s.env.offers)

/-- `HASH` changes only by reset, by a `SETHASH` before activation, and by the arbiter's draw (10_state.md R14, and
45_system_ops.md R189, which the spec derives). -/
def Obligations.HashChangesOnlyInThreeWays : Prop :=
  ∀ s t : State, step s = .next t → t.hash ≠ s.hash →
    (∃ ts, s.env.turns = .reset :: ts ∧ t.hash = 0) ∨
    (s.phase = .ngDraw ∧ IsCandidate t.hash) ∨
    (s.phase = .idle ∧ s.active = false ∧
      ∃ w ws, s.env.port = w :: ws ∧ decode (.command w) = .ok (.sethash t.hash))

/-- Once active and identified, the block stays both until a reset (10_state.md R26, 60_exceptions.md R235). -/
def Obligations.IdentificationIsOneWay : Prop :=
  ∀ s t : State, s.active = true → s.hash ≠ 0 → (∀ ts, s.env.turns ≠ .reset :: ts) → step s = .next t →
    t.active = true ∧ t.hash ≠ 0

/-- `HALTED` is entered only by an `EXCH` whose send was rejected under the policy `HALT` (60_exceptions.md
R226, 42_exchange.md R127). -/
def Obligations.HaltedIsEnteredOnlyByExch : Prop :=
  ∀ s t : State, step s = .next t → s.phase ≠ .halted → t.phase = .halted →
    s.phase = .idle ∧ s.cfg.getLsbD 2 = true ∧
    ∃ w ws a b, s.env.port = w :: ws ∧ decode (.command w) = .ok (.exch a b) ∧
      t.env.offers = ⟨encodeFrame { s.msg a with hash := s.hash }, false⟩ :: s.env.offers ∧
      t.env.responses = s.env.responses

/-- In `HALTED` no register changes, no word is taken, no response, offer or draw is made until a reset: an engine's
turn is used up without effect, and the agents outside go on by themselves; with no turn scheduled the machine is
stuck (60_exceptions.md R226). The fault (notes/assumptions/7.md), the turns of the agents outside
(notes/assumptions/2.md) and the place of an arriving frame (notes/assumptions/1.md) are the model's choices. -/
def Obligations.HaltedChangesNothingUntilReset : Prop :=
  ∀ s : State, s.phase = .halted →
    (s.env.turns = [] → step s = .fault .halted) ∧
    (∀ ts, s.env.turns = .reset :: ts → step s = .next (s.setTurns ts).resetBlock) ∧
    (∀ ts, s.env.turns = .engine :: ts → step s = .next { s with env := { s.env with turns := ts } }) ∧
    (∀ f ts, s.env.turns = .bus f :: ts →
      step s = .next { s with env := { s.env with turns := ts, rx := s.env.rx ++ [some f] } }) ∧
    (∀ m ts, s.env.turns = .outside m :: ts →
      step s = .next { s with env := ({ s.env with turns := ts } : Env).move m })

/-- The machine stops in one state only: halted with no turn scheduled; no step is ever refused (60_exceptions.md
R226). That the stop is a fault is the model's choice (notes/assumptions/7.md). -/
def Obligations.OnlyAHaltedBlockIsStuck : Prop :=
  ∀ s : State, (∃ t, step s = .next t) ∨ (s.Stuck ∧ step s = .fault .halted)

/-- The reset values (10_state.md R30). -/
def Obligations.ResetValues : Prop :=
  let z : Message := ⟨0, 0, false, 0, 0, Vector.replicate 8 0⟩
  let s := State.reset
  s.m0 = z ∧ s.m1 = z ∧ s.hash = 0 ∧ s.timeout = Config.timeoutReset ∧ s.cfg = 0 ∧ s.active = false ∧
  s.err = 0 ∧ s.phase = .idle ∧ s.xcmd = 0 ∧ s.xdst = .m0 ∧ s.xerr = 0 ∧ s.t0 = 0 ∧ s.contested = false ∧
  s.scr = z ∧ s.txt = Vector.replicate 35 0 ∧ s.txtlen = 0 ∧ s.status = 0 ∧
  s.outputs = ⟨false, false, false, false, false, false, true⟩

/-- A reset turn abandons the operation in progress: every register takes its reset value, no response is
delivered and none is pending, and the agents outside keep what they have (70_reset_and_hazards.md R250, R251). That
command words not taken yet keep waiting is the model's choice (notes/assumptions/18.md), and so is the list of pending
responses (notes/assumptions/15.md). -/
def Obligations.ResetTurnAbandonsTheOperation : Prop :=
  ∀ (s : State) (ts : List Turn), s.env.turns = .reset :: ts →
    step s = .next { State.reset with env := { s.env with turns := ts, pending := [] } }

/-- Every step keeps the invariant, from every state that has it (10_state.md R12 and the rules named at
`State.Inv`). -/
def Obligations.EveryStepKeepsTheInvariant : Prop :=
  ∀ s t : State, s.Inv → step s = .next t → t.Inv

/-- The invariant holds after reset. -/
def Obligations.InvariantHoldsAtReset : Prop := State.reset.Inv

/-- Each agent outside the block has a step of its own, in every state, and it changes that agent's part of the
environment alone (00_scope.md R5): the host presents a word or takes the oldest response, the transport receives a
frame of any code or settles an answer, the clock advances, the random source settles a value. The turns,
the lists of words, answers and pending responses, and the place of an arriving frame are the model's choices
(notes/assumptions/1.md, 2.md, 3.md, 4.md, 5.md, 15.md). -/
def Obligations.AgentsOutsideMoveTheirOwnPart : Prop :=
  ∀ (s : State) (x : Turn) (ts : List Turn), s.env.turns = x :: ts →
    let e : Env := { s.env with turns := ts }
    (∀ w, x = .outside (.hostPresents w) → step s = .next { s with env := { e with port := e.port ++ [w] } }) ∧
    (x = .outside .hostTakes → step s = .next { s with env := { e with pending := e.pending.tail } }) ∧
    (∀ f, x = .bus f → step s = .next { s with env := { e with rx := e.rx ++ [some f] } }) ∧
    (∀ b, x = .outside (.transportWillAnswer b) → step s = .next { s with env := { e with tx := e.tx ++ [b] } }) ∧
    (x = .outside .transportWillBeEmpty → step s = .next { s with env := { e with rx := e.rx ++ [none] } }) ∧
    (∀ d, x = .outside (.clockAdvances d) → step s = .next { s with env := { e with now := e.now + d } }) ∧
    (∀ v, x = .outside (.randomSettles v) → step s = .next { s with env := { e with rnd := e.rnd ++ [v] } })
end

