-- ==== Sys2Proof/Laws/State.lean ====
section
/-!
SUPPORT. One lemma per field per update of the state, each true by rfl: later proofs read a field of an updated
state by simp and never unfold an update.
-/

namespace Sys2Proof.Machine

@[simp] theorem State.setPhase_m0 (s : State) (p : Phase) : (s.setPhase p).m0 = s.m0 := rfl
@[simp] theorem State.setPhase_m1 (s : State) (p : Phase) : (s.setPhase p).m1 = s.m1 := rfl
@[simp] theorem State.setPhase_hash (s : State) (p : Phase) : (s.setPhase p).hash = s.hash := rfl
@[simp] theorem State.setPhase_timeout (s : State) (p : Phase) : (s.setPhase p).timeout = s.timeout := rfl
@[simp] theorem State.setPhase_cfg (s : State) (p : Phase) : (s.setPhase p).cfg = s.cfg := rfl
@[simp] theorem State.setPhase_active (s : State) (p : Phase) : (s.setPhase p).active = s.active := rfl
@[simp] theorem State.setPhase_err (s : State) (p : Phase) : (s.setPhase p).err = s.err := rfl
@[simp] theorem State.setPhase_phase (s : State) (p : Phase) : (s.setPhase p).phase = p := rfl
@[simp] theorem State.setPhase_xcmd (s : State) (p : Phase) : (s.setPhase p).xcmd = s.xcmd := rfl
@[simp] theorem State.setPhase_xdst (s : State) (p : Phase) : (s.setPhase p).xdst = s.xdst := rfl
@[simp] theorem State.setPhase_xerr (s : State) (p : Phase) : (s.setPhase p).xerr = s.xerr := rfl
@[simp] theorem State.setPhase_t0 (s : State) (p : Phase) : (s.setPhase p).t0 = s.t0 := rfl
@[simp] theorem State.setPhase_contested (s : State) (p : Phase) : (s.setPhase p).contested = s.contested := rfl
@[simp] theorem State.setPhase_scr (s : State) (p : Phase) : (s.setPhase p).scr = s.scr := rfl
@[simp] theorem State.setPhase_txt (s : State) (p : Phase) : (s.setPhase p).txt = s.txt := rfl
@[simp] theorem State.setPhase_txtlen (s : State) (p : Phase) : (s.setPhase p).txtlen = s.txtlen := rfl
@[simp] theorem State.setPhase_env (s : State) (p : Phase) : (s.setPhase p).env = s.env := rfl

@[simp] theorem State.setPhase_msg (s : State) (p : Phase) (r : MReg) : (s.setPhase p).msg r = s.msg r := by cases r <;> rfl

@[simp] theorem State.setScr_m0 (s : State) (m : Message) : (s.setScr m).m0 = s.m0 := rfl
@[simp] theorem State.setScr_m1 (s : State) (m : Message) : (s.setScr m).m1 = s.m1 := rfl
@[simp] theorem State.setScr_hash (s : State) (m : Message) : (s.setScr m).hash = s.hash := rfl
@[simp] theorem State.setScr_timeout (s : State) (m : Message) : (s.setScr m).timeout = s.timeout := rfl
@[simp] theorem State.setScr_cfg (s : State) (m : Message) : (s.setScr m).cfg = s.cfg := rfl
@[simp] theorem State.setScr_active (s : State) (m : Message) : (s.setScr m).active = s.active := rfl
@[simp] theorem State.setScr_err (s : State) (m : Message) : (s.setScr m).err = s.err := rfl
@[simp] theorem State.setScr_phase (s : State) (m : Message) : (s.setScr m).phase = s.phase := rfl
@[simp] theorem State.setScr_xcmd (s : State) (m : Message) : (s.setScr m).xcmd = s.xcmd := rfl
@[simp] theorem State.setScr_xdst (s : State) (m : Message) : (s.setScr m).xdst = s.xdst := rfl
@[simp] theorem State.setScr_xerr (s : State) (m : Message) : (s.setScr m).xerr = s.xerr := rfl
@[simp] theorem State.setScr_t0 (s : State) (m : Message) : (s.setScr m).t0 = s.t0 := rfl
@[simp] theorem State.setScr_contested (s : State) (m : Message) : (s.setScr m).contested = s.contested := rfl
@[simp] theorem State.setScr_scr (s : State) (m : Message) : (s.setScr m).scr = m := rfl
@[simp] theorem State.setScr_txt (s : State) (m : Message) : (s.setScr m).txt = s.txt := rfl
@[simp] theorem State.setScr_txtlen (s : State) (m : Message) : (s.setScr m).txtlen = s.txtlen := rfl
@[simp] theorem State.setScr_env (s : State) (m : Message) : (s.setScr m).env = s.env := rfl

@[simp] theorem State.setScr_msg (s : State) (m : Message) (r : MReg) : (s.setScr m).msg r = s.msg r := by cases r <;> rfl

@[simp] theorem State.setHash_m0 (s : State) (h : BitVec 16) : (s.setHash h).m0 = s.m0 := rfl
@[simp] theorem State.setHash_m1 (s : State) (h : BitVec 16) : (s.setHash h).m1 = s.m1 := rfl
@[simp] theorem State.setHash_hash (s : State) (h : BitVec 16) : (s.setHash h).hash = h := rfl
@[simp] theorem State.setHash_timeout (s : State) (h : BitVec 16) : (s.setHash h).timeout = s.timeout := rfl
@[simp] theorem State.setHash_cfg (s : State) (h : BitVec 16) : (s.setHash h).cfg = s.cfg := rfl
@[simp] theorem State.setHash_active (s : State) (h : BitVec 16) : (s.setHash h).active = s.active := rfl
@[simp] theorem State.setHash_err (s : State) (h : BitVec 16) : (s.setHash h).err = s.err := rfl
@[simp] theorem State.setHash_phase (s : State) (h : BitVec 16) : (s.setHash h).phase = s.phase := rfl
@[simp] theorem State.setHash_xcmd (s : State) (h : BitVec 16) : (s.setHash h).xcmd = s.xcmd := rfl
@[simp] theorem State.setHash_xdst (s : State) (h : BitVec 16) : (s.setHash h).xdst = s.xdst := rfl
@[simp] theorem State.setHash_xerr (s : State) (h : BitVec 16) : (s.setHash h).xerr = s.xerr := rfl
@[simp] theorem State.setHash_t0 (s : State) (h : BitVec 16) : (s.setHash h).t0 = s.t0 := rfl
@[simp] theorem State.setHash_contested (s : State) (h : BitVec 16) : (s.setHash h).contested = s.contested := rfl
@[simp] theorem State.setHash_scr (s : State) (h : BitVec 16) : (s.setHash h).scr = s.scr := rfl
@[simp] theorem State.setHash_txt (s : State) (h : BitVec 16) : (s.setHash h).txt = s.txt := rfl
@[simp] theorem State.setHash_txtlen (s : State) (h : BitVec 16) : (s.setHash h).txtlen = s.txtlen := rfl
@[simp] theorem State.setHash_env (s : State) (h : BitVec 16) : (s.setHash h).env = s.env := rfl

@[simp] theorem State.setHash_msg (s : State) (h : BitVec 16) (r : MReg) : (s.setHash h).msg r = s.msg r := by cases r <;> rfl

@[simp] theorem State.raise_m0 (s : State) (e : Cause) : (s.raise e).m0 = s.m0 := rfl
@[simp] theorem State.raise_m1 (s : State) (e : Cause) : (s.raise e).m1 = s.m1 := rfl
@[simp] theorem State.raise_hash (s : State) (e : Cause) : (s.raise e).hash = s.hash := rfl
@[simp] theorem State.raise_timeout (s : State) (e : Cause) : (s.raise e).timeout = s.timeout := rfl
@[simp] theorem State.raise_cfg (s : State) (e : Cause) : (s.raise e).cfg = s.cfg := rfl
@[simp] theorem State.raise_active (s : State) (e : Cause) : (s.raise e).active = s.active := rfl
@[simp] theorem State.raise_err (s : State) (e : Cause) : (s.raise e).err = errWith s.err e := rfl
@[simp] theorem State.raise_phase (s : State) (e : Cause) : (s.raise e).phase = s.phase := rfl
@[simp] theorem State.raise_xcmd (s : State) (e : Cause) : (s.raise e).xcmd = s.xcmd := rfl
@[simp] theorem State.raise_xdst (s : State) (e : Cause) : (s.raise e).xdst = s.xdst := rfl
@[simp] theorem State.raise_xerr (s : State) (e : Cause) : (s.raise e).xerr = s.xerr := rfl
@[simp] theorem State.raise_t0 (s : State) (e : Cause) : (s.raise e).t0 = s.t0 := rfl
@[simp] theorem State.raise_contested (s : State) (e : Cause) : (s.raise e).contested = s.contested := rfl
@[simp] theorem State.raise_scr (s : State) (e : Cause) : (s.raise e).scr = s.scr := rfl
@[simp] theorem State.raise_txt (s : State) (e : Cause) : (s.raise e).txt = s.txt := rfl
@[simp] theorem State.raise_txtlen (s : State) (e : Cause) : (s.raise e).txtlen = s.txtlen := rfl
@[simp] theorem State.raise_env (s : State) (e : Cause) : (s.raise e).env = s.env := rfl

@[simp] theorem State.raise_msg (s : State) (e : Cause) (r : MReg) : (s.raise e).msg r = s.msg r := by cases r <;> rfl

@[simp] theorem State.setMsg_hash (s : State) (a : MReg) (m : Message) : (s.setMsg a m).hash = s.hash := by cases a <;> rfl
@[simp] theorem State.setMsg_timeout (s : State) (a : MReg) (m : Message) : (s.setMsg a m).timeout = s.timeout := by cases a <;> rfl
@[simp] theorem State.setMsg_cfg (s : State) (a : MReg) (m : Message) : (s.setMsg a m).cfg = s.cfg := by cases a <;> rfl
@[simp] theorem State.setMsg_active (s : State) (a : MReg) (m : Message) : (s.setMsg a m).active = s.active := by cases a <;> rfl
@[simp] theorem State.setMsg_err (s : State) (a : MReg) (m : Message) : (s.setMsg a m).err = s.err := by cases a <;> rfl
@[simp] theorem State.setMsg_phase (s : State) (a : MReg) (m : Message) : (s.setMsg a m).phase = s.phase := by cases a <;> rfl
@[simp] theorem State.setMsg_xcmd (s : State) (a : MReg) (m : Message) : (s.setMsg a m).xcmd = s.xcmd := by cases a <;> rfl
@[simp] theorem State.setMsg_xdst (s : State) (a : MReg) (m : Message) : (s.setMsg a m).xdst = s.xdst := by cases a <;> rfl
@[simp] theorem State.setMsg_xerr (s : State) (a : MReg) (m : Message) : (s.setMsg a m).xerr = s.xerr := by cases a <;> rfl
@[simp] theorem State.setMsg_t0 (s : State) (a : MReg) (m : Message) : (s.setMsg a m).t0 = s.t0 := by cases a <;> rfl
@[simp] theorem State.setMsg_contested (s : State) (a : MReg) (m : Message) : (s.setMsg a m).contested = s.contested := by cases a <;> rfl
@[simp] theorem State.setMsg_scr (s : State) (a : MReg) (m : Message) : (s.setMsg a m).scr = s.scr := by cases a <;> rfl
@[simp] theorem State.setMsg_txt (s : State) (a : MReg) (m : Message) : (s.setMsg a m).txt = s.txt := by cases a <;> rfl
@[simp] theorem State.setMsg_txtlen (s : State) (a : MReg) (m : Message) : (s.setMsg a m).txtlen = s.txtlen := by cases a <;> rfl
@[simp] theorem State.setMsg_env (s : State) (a : MReg) (m : Message) : (s.setMsg a m).env = s.env := by cases a <;> rfl

@[simp] theorem State.stamp_hash (s : State) (a : MReg) : (s.stamp a).hash = s.hash := by cases a <;> rfl
@[simp] theorem State.stamp_timeout (s : State) (a : MReg) : (s.stamp a).timeout = s.timeout := by cases a <;> rfl
@[simp] theorem State.stamp_cfg (s : State) (a : MReg) : (s.stamp a).cfg = s.cfg := by cases a <;> rfl
@[simp] theorem State.stamp_active (s : State) (a : MReg) : (s.stamp a).active = s.active := by cases a <;> rfl
@[simp] theorem State.stamp_err (s : State) (a : MReg) : (s.stamp a).err = s.err := by cases a <;> rfl
@[simp] theorem State.stamp_phase (s : State) (a : MReg) : (s.stamp a).phase = s.phase := by cases a <;> rfl
@[simp] theorem State.stamp_xcmd (s : State) (a : MReg) : (s.stamp a).xcmd = s.xcmd := by cases a <;> rfl
@[simp] theorem State.stamp_xdst (s : State) (a : MReg) : (s.stamp a).xdst = s.xdst := by cases a <;> rfl
@[simp] theorem State.stamp_xerr (s : State) (a : MReg) : (s.stamp a).xerr = s.xerr := by cases a <;> rfl
@[simp] theorem State.stamp_t0 (s : State) (a : MReg) : (s.stamp a).t0 = s.t0 := by cases a <;> rfl
@[simp] theorem State.stamp_contested (s : State) (a : MReg) : (s.stamp a).contested = s.contested := by cases a <;> rfl
@[simp] theorem State.stamp_scr (s : State) (a : MReg) : (s.stamp a).scr = s.scr := by cases a <;> rfl
@[simp] theorem State.stamp_txt (s : State) (a : MReg) : (s.stamp a).txt = s.txt := by cases a <;> rfl
@[simp] theorem State.stamp_txtlen (s : State) (a : MReg) : (s.stamp a).txtlen = s.txtlen := by cases a <;> rfl
@[simp] theorem State.stamp_env (s : State) (a : MReg) : (s.stamp a).env = s.env := by cases a <;> rfl

@[simp] theorem State.respond_m0 (s : State) (ok : Bool) (e : BitVec 3) (v : BitVec 32) : (s.respond ok e v).m0 = s.m0 := rfl
@[simp] theorem State.respond_m1 (s : State) (ok : Bool) (e : BitVec 3) (v : BitVec 32) : (s.respond ok e v).m1 = s.m1 := rfl
@[simp] theorem State.respond_hash (s : State) (ok : Bool) (e : BitVec 3) (v : BitVec 32) : (s.respond ok e v).hash = s.hash := rfl
@[simp] theorem State.respond_timeout (s : State) (ok : Bool) (e : BitVec 3) (v : BitVec 32) : (s.respond ok e v).timeout = s.timeout := rfl
@[simp] theorem State.respond_cfg (s : State) (ok : Bool) (e : BitVec 3) (v : BitVec 32) : (s.respond ok e v).cfg = s.cfg := rfl
@[simp] theorem State.respond_active (s : State) (ok : Bool) (e : BitVec 3) (v : BitVec 32) : (s.respond ok e v).active = s.active := rfl
@[simp] theorem State.respond_err (s : State) (ok : Bool) (e : BitVec 3) (v : BitVec 32) : (s.respond ok e v).err = s.err := rfl
@[simp] theorem State.respond_phase (s : State) (ok : Bool) (e : BitVec 3) (v : BitVec 32) : (s.respond ok e v).phase = .idle := rfl
@[simp] theorem State.respond_xcmd (s : State) (ok : Bool) (e : BitVec 3) (v : BitVec 32) : (s.respond ok e v).xcmd = s.xcmd := rfl
@[simp] theorem State.respond_xdst (s : State) (ok : Bool) (e : BitVec 3) (v : BitVec 32) : (s.respond ok e v).xdst = s.xdst := rfl
@[simp] theorem State.respond_xerr (s : State) (ok : Bool) (e : BitVec 3) (v : BitVec 32) : (s.respond ok e v).xerr = s.xerr := rfl
@[simp] theorem State.respond_t0 (s : State) (ok : Bool) (e : BitVec 3) (v : BitVec 32) : (s.respond ok e v).t0 = s.t0 := rfl
@[simp] theorem State.respond_contested (s : State) (ok : Bool) (e : BitVec 3) (v : BitVec 32) : (s.respond ok e v).contested = s.contested := rfl
@[simp] theorem State.respond_scr (s : State) (ok : Bool) (e : BitVec 3) (v : BitVec 32) : (s.respond ok e v).scr = s.scr := rfl
@[simp] theorem State.respond_txt (s : State) (ok : Bool) (e : BitVec 3) (v : BitVec 32) : (s.respond ok e v).txt = s.txt := rfl
@[simp] theorem State.respond_txtlen (s : State) (ok : Bool) (e : BitVec 3) (v : BitVec 32) : (s.respond ok e v).txtlen = s.txtlen := rfl
@[simp] theorem State.respond_env_turns (s : State) (ok : Bool) (e : BitVec 3) (v : BitVec 32) : (s.respond ok e v).env.turns = s.env.turns := rfl
@[simp] theorem State.respond_env_port (s : State) (ok : Bool) (e : BitVec 3) (v : BitVec 32) : (s.respond ok e v).env.port = s.env.port := rfl
@[simp] theorem State.respond_env_tx (s : State) (ok : Bool) (e : BitVec 3) (v : BitVec 32) : (s.respond ok e v).env.tx = s.env.tx := rfl
@[simp] theorem State.respond_env_rx (s : State) (ok : Bool) (e : BitVec 3) (v : BitVec 32) : (s.respond ok e v).env.rx = s.env.rx := rfl
@[simp] theorem State.respond_env_clk (s : State) (ok : Bool) (e : BitVec 3) (v : BitVec 32) : (s.respond ok e v).env.clk = s.env.clk := rfl
@[simp] theorem State.respond_env_rnd (s : State) (ok : Bool) (e : BitVec 3) (v : BitVec 32) : (s.respond ok e v).env.rnd = s.env.rnd := rfl
@[simp] theorem State.respond_env_now (s : State) (ok : Bool) (e : BitVec 3) (v : BitVec 32) : (s.respond ok e v).env.now = s.env.now := rfl
@[simp] theorem State.respond_env_draws (s : State) (ok : Bool) (e : BitVec 3) (v : BitVec 32) : (s.respond ok e v).env.draws = s.env.draws := rfl
@[simp] theorem State.respond_env_responses (s : State) (ok : Bool) (e : BitVec 3) (v : BitVec 32) : (s.respond ok e v).env.responses = ⟨ok, e, v⟩ :: s.env.responses := rfl
@[simp] theorem State.respond_env_pending (s : State) (ok : Bool) (e : BitVec 3) (v : BitVec 32) : (s.respond ok e v).env.pending = s.env.pending ++ [⟨ok, e, v⟩] := rfl
@[simp] theorem State.respond_env_offers (s : State) (ok : Bool) (e : BitVec 3) (v : BitVec 32) : (s.respond ok e v).env.offers = s.env.offers := rfl

@[simp] theorem State.respond_msg (s : State) (ok : Bool) (e : BitVec 3) (v : BitVec 32) (r : MReg) : (s.respond ok e v).msg r = s.msg r := by cases r <;> rfl

@[simp] theorem State.refuse_m0 (s : State) (e : Cause) : (s.refuse e).m0 = s.m0 := rfl
@[simp] theorem State.refuse_m1 (s : State) (e : Cause) : (s.refuse e).m1 = s.m1 := rfl
@[simp] theorem State.refuse_hash (s : State) (e : Cause) : (s.refuse e).hash = s.hash := rfl
@[simp] theorem State.refuse_timeout (s : State) (e : Cause) : (s.refuse e).timeout = s.timeout := rfl
@[simp] theorem State.refuse_cfg (s : State) (e : Cause) : (s.refuse e).cfg = s.cfg := rfl
@[simp] theorem State.refuse_active (s : State) (e : Cause) : (s.refuse e).active = s.active := rfl
@[simp] theorem State.refuse_err (s : State) (e : Cause) : (s.refuse e).err = errWith s.err e := rfl
@[simp] theorem State.refuse_phase (s : State) (e : Cause) : (s.refuse e).phase = .idle := rfl
@[simp] theorem State.refuse_xcmd (s : State) (e : Cause) : (s.refuse e).xcmd = s.xcmd := rfl
@[simp] theorem State.refuse_xdst (s : State) (e : Cause) : (s.refuse e).xdst = s.xdst := rfl
@[simp] theorem State.refuse_xerr (s : State) (e : Cause) : (s.refuse e).xerr = s.xerr := rfl
@[simp] theorem State.refuse_t0 (s : State) (e : Cause) : (s.refuse e).t0 = s.t0 := rfl
@[simp] theorem State.refuse_contested (s : State) (e : Cause) : (s.refuse e).contested = s.contested := rfl
@[simp] theorem State.refuse_scr (s : State) (e : Cause) : (s.refuse e).scr = s.scr := rfl
@[simp] theorem State.refuse_txt (s : State) (e : Cause) : (s.refuse e).txt = s.txt := rfl
@[simp] theorem State.refuse_txtlen (s : State) (e : Cause) : (s.refuse e).txtlen = s.txtlen := rfl
@[simp] theorem State.refuse_env_turns (s : State) (e : Cause) : (s.refuse e).env.turns = s.env.turns := rfl
@[simp] theorem State.refuse_env_port (s : State) (e : Cause) : (s.refuse e).env.port = s.env.port := rfl
@[simp] theorem State.refuse_env_tx (s : State) (e : Cause) : (s.refuse e).env.tx = s.env.tx := rfl
@[simp] theorem State.refuse_env_rx (s : State) (e : Cause) : (s.refuse e).env.rx = s.env.rx := rfl
@[simp] theorem State.refuse_env_clk (s : State) (e : Cause) : (s.refuse e).env.clk = s.env.clk := rfl
@[simp] theorem State.refuse_env_rnd (s : State) (e : Cause) : (s.refuse e).env.rnd = s.env.rnd := rfl
@[simp] theorem State.refuse_env_now (s : State) (e : Cause) : (s.refuse e).env.now = s.env.now := rfl
@[simp] theorem State.refuse_env_draws (s : State) (e : Cause) : (s.refuse e).env.draws = s.env.draws := rfl
@[simp] theorem State.refuse_env_responses (s : State) (e : Cause) : (s.refuse e).env.responses = ⟨false, causeCode e, 0⟩ :: s.env.responses := rfl
@[simp] theorem State.refuse_env_pending (s : State) (e : Cause) : (s.refuse e).env.pending = s.env.pending ++ [⟨false, causeCode e, 0⟩] := rfl
@[simp] theorem State.refuse_env_offers (s : State) (e : Cause) : (s.refuse e).env.offers = s.env.offers := rfl

@[simp] theorem State.refuse_msg (s : State) (e : Cause) (r : MReg) : (s.refuse e).msg r = s.msg r := by cases r <;> rfl

@[simp] theorem State.offer_m0 (s : State) (f : Frame) : (s.offer f).m0 = s.m0 := rfl
@[simp] theorem State.offer_m1 (s : State) (f : Frame) : (s.offer f).m1 = s.m1 := rfl
@[simp] theorem State.offer_hash (s : State) (f : Frame) : (s.offer f).hash = s.hash := rfl
@[simp] theorem State.offer_timeout (s : State) (f : Frame) : (s.offer f).timeout = s.timeout := rfl
@[simp] theorem State.offer_cfg (s : State) (f : Frame) : (s.offer f).cfg = s.cfg := rfl
@[simp] theorem State.offer_active (s : State) (f : Frame) : (s.offer f).active = s.active := rfl
@[simp] theorem State.offer_err (s : State) (f : Frame) : (s.offer f).err = s.err := rfl
@[simp] theorem State.offer_phase (s : State) (f : Frame) : (s.offer f).phase = s.phase := rfl
@[simp] theorem State.offer_xcmd (s : State) (f : Frame) : (s.offer f).xcmd = s.xcmd := rfl
@[simp] theorem State.offer_xdst (s : State) (f : Frame) : (s.offer f).xdst = s.xdst := rfl
@[simp] theorem State.offer_xerr (s : State) (f : Frame) : (s.offer f).xerr = s.xerr := rfl
@[simp] theorem State.offer_t0 (s : State) (f : Frame) : (s.offer f).t0 = s.t0 := rfl
@[simp] theorem State.offer_contested (s : State) (f : Frame) : (s.offer f).contested = s.contested := rfl
@[simp] theorem State.offer_scr (s : State) (f : Frame) : (s.offer f).scr = s.scr := rfl
@[simp] theorem State.offer_txt (s : State) (f : Frame) : (s.offer f).txt = s.txt := rfl
@[simp] theorem State.offer_txtlen (s : State) (f : Frame) : (s.offer f).txtlen = s.txtlen := rfl
@[simp] theorem State.offer_env_turns (s : State) (f : Frame) : (s.offer f).env.turns = s.env.turns := rfl
@[simp] theorem State.offer_env_port (s : State) (f : Frame) : (s.offer f).env.port = s.env.port := rfl
@[simp] theorem State.offer_env_tx (s : State) (f : Frame) : (s.offer f).env.tx = s.env.tx.tail := rfl
@[simp] theorem State.offer_env_rx (s : State) (f : Frame) : (s.offer f).env.rx = s.env.rx := rfl
@[simp] theorem State.offer_env_clk (s : State) (f : Frame) : (s.offer f).env.clk = s.env.clk := rfl
@[simp] theorem State.offer_env_rnd (s : State) (f : Frame) : (s.offer f).env.rnd = s.env.rnd := rfl
@[simp] theorem State.offer_env_now (s : State) (f : Frame) : (s.offer f).env.now = s.env.now := rfl
@[simp] theorem State.offer_env_draws (s : State) (f : Frame) : (s.offer f).env.draws = s.env.draws + 1 := rfl
@[simp] theorem State.offer_env_responses (s : State) (f : Frame) : (s.offer f).env.responses = s.env.responses := rfl
@[simp] theorem State.offer_env_pending (s : State) (f : Frame) : (s.offer f).env.pending = s.env.pending := rfl
@[simp] theorem State.offer_env_offers (s : State) (f : Frame) : (s.offer f).env.offers = ⟨f, s.txAnswer⟩ :: s.env.offers := rfl

@[simp] theorem State.offer_msg (s : State) (f : Frame) (r : MReg) : (s.offer f).msg r = s.msg r := by cases r <;> rfl

@[simp] theorem State.polled_m0 (s : State) : (s.polled).m0 = s.m0 := rfl
@[simp] theorem State.polled_m1 (s : State) : (s.polled).m1 = s.m1 := rfl
@[simp] theorem State.polled_hash (s : State) : (s.polled).hash = s.hash := rfl
@[simp] theorem State.polled_timeout (s : State) : (s.polled).timeout = s.timeout := rfl
@[simp] theorem State.polled_cfg (s : State) : (s.polled).cfg = s.cfg := rfl
@[simp] theorem State.polled_active (s : State) : (s.polled).active = s.active := rfl
@[simp] theorem State.polled_err (s : State) : (s.polled).err = s.err := rfl
@[simp] theorem State.polled_phase (s : State) : (s.polled).phase = s.phase := rfl
@[simp] theorem State.polled_xcmd (s : State) : (s.polled).xcmd = s.xcmd := rfl
@[simp] theorem State.polled_xdst (s : State) : (s.polled).xdst = s.xdst := rfl
@[simp] theorem State.polled_xerr (s : State) : (s.polled).xerr = s.xerr := rfl
@[simp] theorem State.polled_t0 (s : State) : (s.polled).t0 = s.t0 := rfl
@[simp] theorem State.polled_contested (s : State) : (s.polled).contested = s.contested := rfl
@[simp] theorem State.polled_scr (s : State) : (s.polled).scr = s.scr := rfl
@[simp] theorem State.polled_txt (s : State) : (s.polled).txt = s.txt := rfl
@[simp] theorem State.polled_txtlen (s : State) : (s.polled).txtlen = s.txtlen := rfl
@[simp] theorem State.polled_env_turns (s : State) : (s.polled).env.turns = s.env.turns := rfl
@[simp] theorem State.polled_env_port (s : State) : (s.polled).env.port = s.env.port := rfl
@[simp] theorem State.polled_env_tx (s : State) : (s.polled).env.tx = s.env.tx := rfl
@[simp] theorem State.polled_env_rx (s : State) : (s.polled).env.rx = s.env.rx.tail := rfl
@[simp] theorem State.polled_env_clk (s : State) : (s.polled).env.clk = s.env.clk := rfl
@[simp] theorem State.polled_env_rnd (s : State) : (s.polled).env.rnd = s.env.rnd := rfl
@[simp] theorem State.polled_env_now (s : State) : (s.polled).env.now = s.env.now := rfl
@[simp] theorem State.polled_env_draws (s : State) : (s.polled).env.draws = s.env.draws + 1 := rfl
@[simp] theorem State.polled_env_responses (s : State) : (s.polled).env.responses = s.env.responses := rfl
@[simp] theorem State.polled_env_pending (s : State) : (s.polled).env.pending = s.env.pending := rfl
@[simp] theorem State.polled_env_offers (s : State) : (s.polled).env.offers = s.env.offers := rfl

@[simp] theorem State.polled_msg (s : State) (r : MReg) : (s.polled).msg r = s.msg r := by cases r <;> rfl

@[simp] theorem State.clockRead_m0 (s : State) : (s.clockRead).m0 = s.m0 := rfl
@[simp] theorem State.clockRead_m1 (s : State) : (s.clockRead).m1 = s.m1 := rfl
@[simp] theorem State.clockRead_hash (s : State) : (s.clockRead).hash = s.hash := rfl
@[simp] theorem State.clockRead_timeout (s : State) : (s.clockRead).timeout = s.timeout := rfl
@[simp] theorem State.clockRead_cfg (s : State) : (s.clockRead).cfg = s.cfg := rfl
@[simp] theorem State.clockRead_active (s : State) : (s.clockRead).active = s.active := rfl
@[simp] theorem State.clockRead_err (s : State) : (s.clockRead).err = s.err := rfl
@[simp] theorem State.clockRead_phase (s : State) : (s.clockRead).phase = s.phase := rfl
@[simp] theorem State.clockRead_xcmd (s : State) : (s.clockRead).xcmd = s.xcmd := rfl
@[simp] theorem State.clockRead_xdst (s : State) : (s.clockRead).xdst = s.xdst := rfl
@[simp] theorem State.clockRead_xerr (s : State) : (s.clockRead).xerr = s.xerr := rfl
@[simp] theorem State.clockRead_t0 (s : State) : (s.clockRead).t0 = s.t0 := rfl
@[simp] theorem State.clockRead_contested (s : State) : (s.clockRead).contested = s.contested := rfl
@[simp] theorem State.clockRead_scr (s : State) : (s.clockRead).scr = s.scr := rfl
@[simp] theorem State.clockRead_txt (s : State) : (s.clockRead).txt = s.txt := rfl
@[simp] theorem State.clockRead_txtlen (s : State) : (s.clockRead).txtlen = s.txtlen := rfl
@[simp] theorem State.clockRead_env_turns (s : State) : (s.clockRead).env.turns = s.env.turns := rfl
@[simp] theorem State.clockRead_env_port (s : State) : (s.clockRead).env.port = s.env.port := rfl
@[simp] theorem State.clockRead_env_tx (s : State) : (s.clockRead).env.tx = s.env.tx := rfl
@[simp] theorem State.clockRead_env_rx (s : State) : (s.clockRead).env.rx = s.env.rx := rfl
@[simp] theorem State.clockRead_env_clk (s : State) : (s.clockRead).env.clk = s.env.clk.tail := rfl
@[simp] theorem State.clockRead_env_rnd (s : State) : (s.clockRead).env.rnd = s.env.rnd := rfl
@[simp] theorem State.clockRead_env_now (s : State) : (s.clockRead).env.now = s.clock := rfl
@[simp] theorem State.clockRead_env_draws (s : State) : (s.clockRead).env.draws = s.env.draws + 1 := rfl
@[simp] theorem State.clockRead_env_responses (s : State) : (s.clockRead).env.responses = s.env.responses := rfl
@[simp] theorem State.clockRead_env_pending (s : State) : (s.clockRead).env.pending = s.env.pending := rfl
@[simp] theorem State.clockRead_env_offers (s : State) : (s.clockRead).env.offers = s.env.offers := rfl

@[simp] theorem State.clockRead_msg (s : State) (r : MReg) : (s.clockRead).msg r = s.msg r := by cases r <;> rfl

@[simp] theorem State.rndRead_m0 (s : State) : (s.rndRead).m0 = s.m0 := rfl
@[simp] theorem State.rndRead_m1 (s : State) : (s.rndRead).m1 = s.m1 := rfl
@[simp] theorem State.rndRead_hash (s : State) : (s.rndRead).hash = s.hash := rfl
@[simp] theorem State.rndRead_timeout (s : State) : (s.rndRead).timeout = s.timeout := rfl
@[simp] theorem State.rndRead_cfg (s : State) : (s.rndRead).cfg = s.cfg := rfl
@[simp] theorem State.rndRead_active (s : State) : (s.rndRead).active = s.active := rfl
@[simp] theorem State.rndRead_err (s : State) : (s.rndRead).err = s.err := rfl
@[simp] theorem State.rndRead_phase (s : State) : (s.rndRead).phase = s.phase := rfl
@[simp] theorem State.rndRead_xcmd (s : State) : (s.rndRead).xcmd = s.xcmd := rfl
@[simp] theorem State.rndRead_xdst (s : State) : (s.rndRead).xdst = s.xdst := rfl
@[simp] theorem State.rndRead_xerr (s : State) : (s.rndRead).xerr = s.xerr := rfl
@[simp] theorem State.rndRead_t0 (s : State) : (s.rndRead).t0 = s.t0 := rfl
@[simp] theorem State.rndRead_contested (s : State) : (s.rndRead).contested = s.contested := rfl
@[simp] theorem State.rndRead_scr (s : State) : (s.rndRead).scr = s.scr := rfl
@[simp] theorem State.rndRead_txt (s : State) : (s.rndRead).txt = s.txt := rfl
@[simp] theorem State.rndRead_txtlen (s : State) : (s.rndRead).txtlen = s.txtlen := rfl
@[simp] theorem State.rndRead_env_turns (s : State) : (s.rndRead).env.turns = s.env.turns := rfl
@[simp] theorem State.rndRead_env_port (s : State) : (s.rndRead).env.port = s.env.port := rfl
@[simp] theorem State.rndRead_env_tx (s : State) : (s.rndRead).env.tx = s.env.tx := rfl
@[simp] theorem State.rndRead_env_rx (s : State) : (s.rndRead).env.rx = s.env.rx := rfl
@[simp] theorem State.rndRead_env_clk (s : State) : (s.rndRead).env.clk = s.env.clk := rfl
@[simp] theorem State.rndRead_env_rnd (s : State) : (s.rndRead).env.rnd = s.env.rnd.tail := rfl
@[simp] theorem State.rndRead_env_now (s : State) : (s.rndRead).env.now = s.env.now := rfl
@[simp] theorem State.rndRead_env_draws (s : State) : (s.rndRead).env.draws = s.env.draws + 1 := rfl
@[simp] theorem State.rndRead_env_responses (s : State) : (s.rndRead).env.responses = s.env.responses := rfl
@[simp] theorem State.rndRead_env_pending (s : State) : (s.rndRead).env.pending = s.env.pending := rfl
@[simp] theorem State.rndRead_env_offers (s : State) : (s.rndRead).env.offers = s.env.offers := rfl

@[simp] theorem State.rndRead_msg (s : State) (r : MReg) : (s.rndRead).msg r = s.msg r := by cases r <;> rfl

@[simp] theorem State.deliver_m0 (s : State) (f : Frame) : (s.deliver f).m0 = s.m0 := rfl
@[simp] theorem State.deliver_m1 (s : State) (f : Frame) : (s.deliver f).m1 = s.m1 := rfl
@[simp] theorem State.deliver_hash (s : State) (f : Frame) : (s.deliver f).hash = s.hash := rfl
@[simp] theorem State.deliver_timeout (s : State) (f : Frame) : (s.deliver f).timeout = s.timeout := rfl
@[simp] theorem State.deliver_cfg (s : State) (f : Frame) : (s.deliver f).cfg = s.cfg := rfl
@[simp] theorem State.deliver_active (s : State) (f : Frame) : (s.deliver f).active = s.active := rfl
@[simp] theorem State.deliver_err (s : State) (f : Frame) : (s.deliver f).err = s.err := rfl
@[simp] theorem State.deliver_phase (s : State) (f : Frame) : (s.deliver f).phase = s.phase := rfl
@[simp] theorem State.deliver_xcmd (s : State) (f : Frame) : (s.deliver f).xcmd = s.xcmd := rfl
@[simp] theorem State.deliver_xdst (s : State) (f : Frame) : (s.deliver f).xdst = s.xdst := rfl
@[simp] theorem State.deliver_xerr (s : State) (f : Frame) : (s.deliver f).xerr = s.xerr := rfl
@[simp] theorem State.deliver_t0 (s : State) (f : Frame) : (s.deliver f).t0 = s.t0 := rfl
@[simp] theorem State.deliver_contested (s : State) (f : Frame) : (s.deliver f).contested = s.contested := rfl
@[simp] theorem State.deliver_scr (s : State) (f : Frame) : (s.deliver f).scr = s.scr := rfl
@[simp] theorem State.deliver_txt (s : State) (f : Frame) : (s.deliver f).txt = s.txt := rfl
@[simp] theorem State.deliver_txtlen (s : State) (f : Frame) : (s.deliver f).txtlen = s.txtlen := rfl
@[simp] theorem State.deliver_env_turns (s : State) (f : Frame) : (s.deliver f).env.turns = s.env.turns := rfl
@[simp] theorem State.deliver_env_port (s : State) (f : Frame) : (s.deliver f).env.port = s.env.port := rfl
@[simp] theorem State.deliver_env_tx (s : State) (f : Frame) : (s.deliver f).env.tx = s.env.tx := rfl
@[simp] theorem State.deliver_env_rx (s : State) (f : Frame) : (s.deliver f).env.rx = s.env.rx ++ [some f] := rfl
@[simp] theorem State.deliver_env_clk (s : State) (f : Frame) : (s.deliver f).env.clk = s.env.clk := rfl
@[simp] theorem State.deliver_env_rnd (s : State) (f : Frame) : (s.deliver f).env.rnd = s.env.rnd := rfl
@[simp] theorem State.deliver_env_now (s : State) (f : Frame) : (s.deliver f).env.now = s.env.now := rfl
@[simp] theorem State.deliver_env_draws (s : State) (f : Frame) : (s.deliver f).env.draws = s.env.draws := rfl
@[simp] theorem State.deliver_env_responses (s : State) (f : Frame) : (s.deliver f).env.responses = s.env.responses := rfl
@[simp] theorem State.deliver_env_pending (s : State) (f : Frame) : (s.deliver f).env.pending = s.env.pending := rfl
@[simp] theorem State.deliver_env_offers (s : State) (f : Frame) : (s.deliver f).env.offers = s.env.offers := rfl

@[simp] theorem State.deliver_msg (s : State) (f : Frame) (r : MReg) : (s.deliver f).msg r = s.msg r := by cases r <;> rfl

@[simp] theorem State.setTurns_m0 (s : State) (ts : List Turn) : (s.setTurns ts).m0 = s.m0 := rfl
@[simp] theorem State.setTurns_m1 (s : State) (ts : List Turn) : (s.setTurns ts).m1 = s.m1 := rfl
@[simp] theorem State.setTurns_hash (s : State) (ts : List Turn) : (s.setTurns ts).hash = s.hash := rfl
@[simp] theorem State.setTurns_timeout (s : State) (ts : List Turn) : (s.setTurns ts).timeout = s.timeout := rfl
@[simp] theorem State.setTurns_cfg (s : State) (ts : List Turn) : (s.setTurns ts).cfg = s.cfg := rfl
@[simp] theorem State.setTurns_active (s : State) (ts : List Turn) : (s.setTurns ts).active = s.active := rfl
@[simp] theorem State.setTurns_err (s : State) (ts : List Turn) : (s.setTurns ts).err = s.err := rfl
@[simp] theorem State.setTurns_phase (s : State) (ts : List Turn) : (s.setTurns ts).phase = s.phase := rfl
@[simp] theorem State.setTurns_xcmd (s : State) (ts : List Turn) : (s.setTurns ts).xcmd = s.xcmd := rfl
@[simp] theorem State.setTurns_xdst (s : State) (ts : List Turn) : (s.setTurns ts).xdst = s.xdst := rfl
@[simp] theorem State.setTurns_xerr (s : State) (ts : List Turn) : (s.setTurns ts).xerr = s.xerr := rfl
@[simp] theorem State.setTurns_t0 (s : State) (ts : List Turn) : (s.setTurns ts).t0 = s.t0 := rfl
@[simp] theorem State.setTurns_contested (s : State) (ts : List Turn) : (s.setTurns ts).contested = s.contested := rfl
@[simp] theorem State.setTurns_scr (s : State) (ts : List Turn) : (s.setTurns ts).scr = s.scr := rfl
@[simp] theorem State.setTurns_txt (s : State) (ts : List Turn) : (s.setTurns ts).txt = s.txt := rfl
@[simp] theorem State.setTurns_txtlen (s : State) (ts : List Turn) : (s.setTurns ts).txtlen = s.txtlen := rfl
@[simp] theorem State.setTurns_env_turns (s : State) (ts : List Turn) : (s.setTurns ts).env.turns = ts := rfl
@[simp] theorem State.setTurns_env_port (s : State) (ts : List Turn) : (s.setTurns ts).env.port = s.env.port := rfl
@[simp] theorem State.setTurns_env_tx (s : State) (ts : List Turn) : (s.setTurns ts).env.tx = s.env.tx := rfl
@[simp] theorem State.setTurns_env_rx (s : State) (ts : List Turn) : (s.setTurns ts).env.rx = s.env.rx := rfl
@[simp] theorem State.setTurns_env_clk (s : State) (ts : List Turn) : (s.setTurns ts).env.clk = s.env.clk := rfl
@[simp] theorem State.setTurns_env_rnd (s : State) (ts : List Turn) : (s.setTurns ts).env.rnd = s.env.rnd := rfl
@[simp] theorem State.setTurns_env_now (s : State) (ts : List Turn) : (s.setTurns ts).env.now = s.env.now := rfl
@[simp] theorem State.setTurns_env_draws (s : State) (ts : List Turn) : (s.setTurns ts).env.draws = s.env.draws := rfl
@[simp] theorem State.setTurns_env_responses (s : State) (ts : List Turn) : (s.setTurns ts).env.responses = s.env.responses := rfl
@[simp] theorem State.setTurns_env_pending (s : State) (ts : List Turn) : (s.setTurns ts).env.pending = s.env.pending := rfl
@[simp] theorem State.setTurns_env_offers (s : State) (ts : List Turn) : (s.setTurns ts).env.offers = s.env.offers := rfl

@[simp] theorem State.setTurns_msg (s : State) (ts : List Turn) (r : MReg) : (s.setTurns ts).msg r = s.msg r := by cases r <;> rfl

@[simp] theorem State.setPort_m0 (s : State) (ws : List CommandWord) : (s.setPort ws).m0 = s.m0 := rfl
@[simp] theorem State.setPort_m1 (s : State) (ws : List CommandWord) : (s.setPort ws).m1 = s.m1 := rfl
@[simp] theorem State.setPort_hash (s : State) (ws : List CommandWord) : (s.setPort ws).hash = s.hash := rfl
@[simp] theorem State.setPort_timeout (s : State) (ws : List CommandWord) : (s.setPort ws).timeout = s.timeout := rfl
@[simp] theorem State.setPort_cfg (s : State) (ws : List CommandWord) : (s.setPort ws).cfg = s.cfg := rfl
@[simp] theorem State.setPort_active (s : State) (ws : List CommandWord) : (s.setPort ws).active = s.active := rfl
@[simp] theorem State.setPort_err (s : State) (ws : List CommandWord) : (s.setPort ws).err = s.err := rfl
@[simp] theorem State.setPort_phase (s : State) (ws : List CommandWord) : (s.setPort ws).phase = s.phase := rfl
@[simp] theorem State.setPort_xcmd (s : State) (ws : List CommandWord) : (s.setPort ws).xcmd = s.xcmd := rfl
@[simp] theorem State.setPort_xdst (s : State) (ws : List CommandWord) : (s.setPort ws).xdst = s.xdst := rfl
@[simp] theorem State.setPort_xerr (s : State) (ws : List CommandWord) : (s.setPort ws).xerr = s.xerr := rfl
@[simp] theorem State.setPort_t0 (s : State) (ws : List CommandWord) : (s.setPort ws).t0 = s.t0 := rfl
@[simp] theorem State.setPort_contested (s : State) (ws : List CommandWord) : (s.setPort ws).contested = s.contested := rfl
@[simp] theorem State.setPort_scr (s : State) (ws : List CommandWord) : (s.setPort ws).scr = s.scr := rfl
@[simp] theorem State.setPort_txt (s : State) (ws : List CommandWord) : (s.setPort ws).txt = s.txt := rfl
@[simp] theorem State.setPort_txtlen (s : State) (ws : List CommandWord) : (s.setPort ws).txtlen = s.txtlen := rfl
@[simp] theorem State.setPort_env_turns (s : State) (ws : List CommandWord) : (s.setPort ws).env.turns = s.env.turns := rfl
@[simp] theorem State.setPort_env_port (s : State) (ws : List CommandWord) : (s.setPort ws).env.port = ws := rfl
@[simp] theorem State.setPort_env_tx (s : State) (ws : List CommandWord) : (s.setPort ws).env.tx = s.env.tx := rfl
@[simp] theorem State.setPort_env_rx (s : State) (ws : List CommandWord) : (s.setPort ws).env.rx = s.env.rx := rfl
@[simp] theorem State.setPort_env_clk (s : State) (ws : List CommandWord) : (s.setPort ws).env.clk = s.env.clk := rfl
@[simp] theorem State.setPort_env_rnd (s : State) (ws : List CommandWord) : (s.setPort ws).env.rnd = s.env.rnd := rfl
@[simp] theorem State.setPort_env_now (s : State) (ws : List CommandWord) : (s.setPort ws).env.now = s.env.now := rfl
@[simp] theorem State.setPort_env_draws (s : State) (ws : List CommandWord) : (s.setPort ws).env.draws = s.env.draws := rfl
@[simp] theorem State.setPort_env_responses (s : State) (ws : List CommandWord) : (s.setPort ws).env.responses = s.env.responses := rfl
@[simp] theorem State.setPort_env_pending (s : State) (ws : List CommandWord) : (s.setPort ws).env.pending = s.env.pending := rfl
@[simp] theorem State.setPort_env_offers (s : State) (ws : List CommandWord) : (s.setPort ws).env.offers = s.env.offers := rfl

@[simp] theorem State.setPort_msg (s : State) (ws : List CommandWord) (r : MReg) : (s.setPort ws).msg r = s.msg r := by cases r <;> rfl

@[simp] theorem State.outside_m0 (s : State) (m : AgentMove) : (s.outside m).m0 = s.m0 := rfl
@[simp] theorem State.outside_m1 (s : State) (m : AgentMove) : (s.outside m).m1 = s.m1 := rfl
@[simp] theorem State.outside_hash (s : State) (m : AgentMove) : (s.outside m).hash = s.hash := rfl
@[simp] theorem State.outside_timeout (s : State) (m : AgentMove) : (s.outside m).timeout = s.timeout := rfl
@[simp] theorem State.outside_cfg (s : State) (m : AgentMove) : (s.outside m).cfg = s.cfg := rfl
@[simp] theorem State.outside_active (s : State) (m : AgentMove) : (s.outside m).active = s.active := rfl
@[simp] theorem State.outside_err (s : State) (m : AgentMove) : (s.outside m).err = s.err := rfl
@[simp] theorem State.outside_phase (s : State) (m : AgentMove) : (s.outside m).phase = s.phase := rfl
@[simp] theorem State.outside_xcmd (s : State) (m : AgentMove) : (s.outside m).xcmd = s.xcmd := rfl
@[simp] theorem State.outside_xdst (s : State) (m : AgentMove) : (s.outside m).xdst = s.xdst := rfl
@[simp] theorem State.outside_xerr (s : State) (m : AgentMove) : (s.outside m).xerr = s.xerr := rfl
@[simp] theorem State.outside_t0 (s : State) (m : AgentMove) : (s.outside m).t0 = s.t0 := rfl
@[simp] theorem State.outside_contested (s : State) (m : AgentMove) : (s.outside m).contested = s.contested := rfl
@[simp] theorem State.outside_scr (s : State) (m : AgentMove) : (s.outside m).scr = s.scr := rfl
@[simp] theorem State.outside_txt (s : State) (m : AgentMove) : (s.outside m).txt = s.txt := rfl
@[simp] theorem State.outside_txtlen (s : State) (m : AgentMove) : (s.outside m).txtlen = s.txtlen := rfl
@[simp] theorem State.outside_env (s : State) (m : AgentMove) : (s.outside m).env = s.env.move m := rfl

@[simp] theorem State.outside_msg (s : State) (m : AgentMove) (r : MReg) : (s.outside m).msg r = s.msg r := by cases r <;> rfl

@[simp] theorem Env.move_responses (e : Env) (m : AgentMove) : (e.move m).responses = e.responses := by cases m <;> rfl
@[simp] theorem Env.move_offers (e : Env) (m : AgentMove) : (e.move m).offers = e.offers := by cases m <;> rfl
@[simp] theorem Env.move_turns (e : Env) (m : AgentMove) : (e.move m).turns = e.turns := by cases m <;> rfl
@[simp] theorem Env.move_clk (e : Env) (m : AgentMove) : (e.move m).clk = e.clk := by cases m <;> rfl
@[simp] theorem Env.move_draws (e : Env) (m : AgentMove) : (e.move m).draws = e.draws := by cases m <;> rfl

@[simp] theorem State.resetBlock_m0 (s : State) : s.resetBlock.m0 = Message.cleared := rfl
@[simp] theorem State.resetBlock_m1 (s : State) : s.resetBlock.m1 = Message.cleared := rfl
@[simp] theorem State.resetBlock_hash (s : State) : s.resetBlock.hash = 0 := rfl
@[simp] theorem State.resetBlock_timeout (s : State) : s.resetBlock.timeout = Config.timeoutReset := rfl
@[simp] theorem State.resetBlock_cfg (s : State) : s.resetBlock.cfg = 0 := rfl
@[simp] theorem State.resetBlock_active (s : State) : s.resetBlock.active = false := rfl
@[simp] theorem State.resetBlock_err (s : State) : s.resetBlock.err = 0 := rfl
@[simp] theorem State.resetBlock_phase (s : State) : s.resetBlock.phase = .idle := rfl
@[simp] theorem State.resetBlock_xcmd (s : State) : s.resetBlock.xcmd = 0 := rfl
@[simp] theorem State.resetBlock_xdst (s : State) : s.resetBlock.xdst = .m0 := rfl
@[simp] theorem State.resetBlock_xerr (s : State) : s.resetBlock.xerr = 0 := rfl
@[simp] theorem State.resetBlock_t0 (s : State) : s.resetBlock.t0 = 0 := rfl
@[simp] theorem State.resetBlock_contested (s : State) : s.resetBlock.contested = false := rfl
@[simp] theorem State.resetBlock_scr (s : State) : s.resetBlock.scr = Message.cleared := rfl
@[simp] theorem State.resetBlock_txt (s : State) : s.resetBlock.txt = TextBuf.zero := rfl
@[simp] theorem State.resetBlock_txtlen (s : State) : s.resetBlock.txtlen = 0 := rfl
@[simp] theorem State.resetBlock_env (s : State) : s.resetBlock.env = { s.env with pending := [] } := rfl

@[simp] theorem State.msg_m0 (s : State) : s.msg .m0 = s.m0 := rfl
@[simp] theorem State.msg_m1 (s : State) : s.msg .m1 = s.m1 := rfl
@[simp] theorem State.setMsg_m0_m0 (s : State) (m : Message) : (s.setMsg .m0 m).m0 = m := rfl
@[simp] theorem State.setMsg_m0_m1 (s : State) (m : Message) : (s.setMsg .m0 m).m1 = s.m1 := rfl
@[simp] theorem State.setMsg_m1_m0 (s : State) (m : Message) : (s.setMsg .m1 m).m0 = s.m0 := rfl
@[simp] theorem State.setMsg_m1_m1 (s : State) (m : Message) : (s.setMsg .m1 m).m1 = m := rfl
@[simp] theorem State.stamp_m0_m0 (s : State) : (s.stamp .m0).m0 = { s.m0 with hash := s.hash } := rfl
@[simp] theorem State.stamp_m0_m1 (s : State) : (s.stamp .m0).m1 = s.m1 := rfl
@[simp] theorem State.stamp_m1_m0 (s : State) : (s.stamp .m1).m0 = s.m0 := rfl
@[simp] theorem State.stamp_m1_m1 (s : State) : (s.stamp .m1).m1 = { s.m1 with hash := s.hash } := rfl

@[simp] theorem State.setMsg_msg_same (s : State) (a : MReg) (m : Message) : (s.setMsg a m).msg a = m := by
  cases a <;> rfl

theorem State.setMsg_msg_other (s : State) (a b : MReg) (m : Message) (h : b ≠ a) :
    (s.setMsg a m).msg b = s.msg b := by
  cases a <;> cases b <;> simp_all

@[simp] theorem State.stamp_msg_same (s : State) (a : MReg) :
    (s.stamp a).msg a = { s.msg a with hash := s.hash } := by
  cases a <;> rfl

theorem State.stamp_msg_other (s : State) (a b : MReg) (h : b ≠ a) : (s.stamp a).msg b = s.msg b := by
  cases a <;> cases b <;> simp_all

/-- The draws do not depend on the registers. -/
theorem State.draws_of_env (s t : State) (h : s.env = t.env) :
    s.txAnswer = t.txAnswer ∧ s.rxAnswer = t.rxAnswer ∧ s.clock = t.clock ∧ s.rndValue = t.rndValue := by
  simp [State.txAnswer, State.rxAnswer, State.clock, State.rndValue, h]

@[simp] theorem State.stamp_txAnswer (s : State) (a : MReg) : (s.stamp a).txAnswer = s.txAnswer :=
  (State.draws_of_env _ _ (by simp)).1

@[simp] theorem State.setScr_txAnswer (s : State) (m : Message) : (s.setScr m).txAnswer = s.txAnswer := rfl

/-- A state is equal to another when its registers and its environment are. -/
theorem State.ext_fields (s t : State) (h0 : s.m0 = t.m0) (h1 : s.m1 = t.m1) (h2 : s.hash = t.hash)
    (h3 : s.timeout = t.timeout) (h4 : s.cfg = t.cfg) (h5 : s.active = t.active) (h6 : s.err = t.err)
    (h7 : s.phase = t.phase) (h8 : s.xcmd = t.xcmd) (h9 : s.xdst = t.xdst) (h10 : s.xerr = t.xerr)
    (h11 : s.t0 = t.t0) (h12 : s.contested = t.contested) (h13 : s.scr = t.scr) (h14 : s.txt = t.txt)
    (h15 : s.txtlen = t.txtlen) (h16 : s.env = t.env) : s = t := by
  cases s
  cases t
  simp_all

end Sys2Proof.Machine
end

