-- ==== Sys2Proof/Laws/Ops.lean ====
section
/-!
SUPPORT. What each shared operation can do, said once: the provers cite these and unfold nothing.
-/

namespace Sys2Proof.Machine

/-! ### Operands -/

theorem fieldOf_none_of_unnamed (sel : BitVec 5) : ((5 ≤ sel ∧ sel ≤ 7) ∨ 23 ≤ sel) → fieldOf sel = none := by
  revert sel
  decide

theorem fieldOf_byte (sel : BitVec 5) (k : Fin 8) : sel.toNat = 8 + k.val → fieldOf sel = some (.byte k) := by
  revert sel k
  decide

theorem fieldOf_pair (sel : BitVec 5) (k : Fin 7) : sel.toNat = 16 + k.val → fieldOf sel = some (.pair k) := by
  revert sel k
  decide

theorem sysRegOf_none_of_unnamed (sel : BitVec 5) : 5 < sel → sysRegOf sel = none := by
  revert sel
  decide

theorem textPos_some (idx : BitVec 6) (h : idx.toNat < 35) : textPos idx = some ⟨idx.toNat, h⟩ := dif_pos h

theorem textPos_none (idx : BitVec 6) (h : 34 < idx.toNat) : textPos idx = none := dif_neg (by omega)

/-! ### The answers an operation depends on -/

theorem loadField_unnamed (a : MReg) (sel : BitVec 5) (imm : BitVec 16) (s : State) (h : fieldOf sel = none) :
    loadField a sel imm s = s.refuse .badArgument := by
  simp only [loadField, h]

theorem loadField_named (a : MReg) (sel : BitVec 5) (imm : BitVec 16) (s : State) (f : Field)
    (h : fieldOf sel = some f) (hm : imm.toNat ≤ f.max) :
    loadField a sel imm s = (s.setMsg a (f.write imm (s.msg a))).respond true 0 0 := by
  simp only [loadField, h, if_neg (Nat.not_lt.mpr hm)]

theorem loadField_over (a : MReg) (sel : BitVec 5) (imm : BitVec 16) (s : State) (f : Field)
    (h : fieldOf sel = some f) (hm : f.max < imm.toNat) : loadField a sel imm s = s.refuse .badArgument := by
  simp only [loadField, h, if_pos hm]

theorem readField_named (a : MReg) (sel : BitVec 5) (s : State) (f : Field) (h : fieldOf sel = some f) :
    readField a sel s = s.respond true 0 (f.read (s.msg a)) := by
  simp only [readField, h]

theorem readField_unnamed (a : MReg) (sel : BitVec 5) (s : State) (h : fieldOf sel = none) :
    readField a sel s = s.refuse .badArgument := by
  simp only [readField, h]

theorem exchAnswered_accepted (s : State) : exchAnswered true s = s.setPhase .exPoll := rfl

theorem exchAnswered_continue (s : State) (h : s.sfpolHalt = false) :
    exchAnswered false s = { s.raise .sendFailure with xerr := 1, phase := .exPoll } := by
  simp only [exchAnswered, h]
  rfl

theorem exchAnswered_halt (s : State) (h : s.sfpolHalt = true) :
    exchAnswered false s = { s.raise .sendFailure with xerr := 1, phase := .halted } := by
  simp only [exchAnswered, h]
  rfl

theorem exchExpired_iff (s : State) (now : BitVec 32) :
    exchExpired s now = true ↔ s.timeout.toNat ≤ (now - s.t0).toNat := by
  have := s.timeout.isLt
  simp only [exchExpired, elapsed, decide_eq_true_eq, BitVec.le_def, BitVec.truncate_eq_setWidth,
    BitVec.toNat_setWidth]
  rw [Nat.mod_eq_of_lt (by omega)]

theorem exchMatches_iff (s : State) (m : Message) :
    exchMatches s m = true ↔ m.cmd = s.xcmd ∧ m.resp = true := by
  simp [exchMatches]

theorem settled_iff (ms now t0 : BitVec 32) : settled ms now t0 = true ↔ ms.toNat ≤ (now - t0).toNat := by
  simp [settled, elapsed, BitVec.le_def]

theorem hashOr_ne_zero : Config.hashOr ≠ 0 := by
  have hi := Config.hashOrIndex.isLt
  intro h
  have h' := congrArg BitVec.toNat h
  simp [Config.hashOr] at h'
  omega

theorem saturateLen_le (l : BitVec 4) : saturateLen l ≤ 8 := by
  revert l
  decide

theorem saturateLen_of_le (l : BitVec 4) (h : l ≤ 8) : saturateLen l = l :=
  if_neg (BitVec.not_lt.mpr h)

theorem padZero_get (len : BitVec 4) (d : Payload) (k : Fin 8) :
    (padZero len d)[k] = if k.val < len.toNat then d[k] else 0 := by
  simp [padZero]

/-! ### What EXCH captures -/

@[simp] theorem exchBegin_m0 (a b : MReg) (s : State) : (exchBegin a b s).m0 = s.m0 := rfl
@[simp] theorem exchBegin_m1 (a b : MReg) (s : State) : (exchBegin a b s).m1 = s.m1 := rfl
@[simp] theorem exchBegin_hash (a b : MReg) (s : State) : (exchBegin a b s).hash = s.hash := rfl
@[simp] theorem exchBegin_timeout (a b : MReg) (s : State) : (exchBegin a b s).timeout = s.timeout := rfl
@[simp] theorem exchBegin_cfg (a b : MReg) (s : State) : (exchBegin a b s).cfg = s.cfg := rfl
@[simp] theorem exchBegin_active (a b : MReg) (s : State) : (exchBegin a b s).active = s.active := rfl
@[simp] theorem exchBegin_err (a b : MReg) (s : State) : (exchBegin a b s).err = s.err := rfl
@[simp] theorem exchBegin_phase (a b : MReg) (s : State) : (exchBegin a b s).phase = s.phase := rfl
@[simp] theorem exchBegin_xcmd (a b : MReg) (s : State) : (exchBegin a b s).xcmd = (s.msg a).cmd := rfl
@[simp] theorem exchBegin_xdst (a b : MReg) (s : State) : (exchBegin a b s).xdst = b := rfl
@[simp] theorem exchBegin_xerr (a b : MReg) (s : State) : (exchBegin a b s).xerr = 0 := rfl
@[simp] theorem exchBegin_t0 (a b : MReg) (s : State) : (exchBegin a b s).t0 = s.clock := rfl
@[simp] theorem exchBegin_contested (a b : MReg) (s : State) : (exchBegin a b s).contested = s.contested := rfl
@[simp] theorem exchBegin_scr (a b : MReg) (s : State) : (exchBegin a b s).scr = s.scr := rfl
@[simp] theorem exchBegin_txt (a b : MReg) (s : State) : (exchBegin a b s).txt = s.txt := rfl
@[simp] theorem exchBegin_txtlen (a b : MReg) (s : State) : (exchBegin a b s).txtlen = s.txtlen := rfl
@[simp] theorem exchBegin_env (a b : MReg) (s : State) : (exchBegin a b s).env = s.clockRead.env := rfl

@[simp] theorem exchBegin_msg (a b r : MReg) (s : State) : (exchBegin a b s).msg r = s.msg r := by
  cases r <;> rfl

/-- The three ends of the first micro-step of `EXCH`: accepted, rejected and going on, rejected and stopped. -/
theorem execExch_cases {a b : MReg} {s t : State} (h : execExch a b s = .next t) :
    ∃ s2 : State, s2 = ((exchBegin a b s).stamp a).offer (encodeFrame { s.msg a with hash := s.hash }) ∧
      (((exchBegin a b s).txAnswer = true ∧ t = s2.setPhase .exPoll) ∨
       ((exchBegin a b s).txAnswer = false ∧ s.sfpolHalt = false ∧
        t = { s2.raise .sendFailure with xerr := 1, phase := .exPoll }) ∨
       ((exchBegin a b s).txAnswer = false ∧ s.sfpolHalt = true ∧
        t = { s2.raise .sendFailure with xerr := 1, phase := .halted })) := by
  refine ⟨_, rfl, ?_⟩
  unfold execExch at h
  simp only [State.stamp_msg_same, exchBegin_msg, exchBegin_hash, State.stamp_txAnswer] at h
  generalize hs : ((exchBegin a b s).stamp a).offer (encodeFrame { s.msg a with hash := s.hash }) = s2 at h ⊢
  have hp : s2.sfpolHalt = s.sfpolHalt := by
    rw [State.sfpolHalt, State.sfpolHalt, ← hs]
    simp
  cases hx : (exchBegin a b s).txAnswer
  · rw [hx] at h
    cases hh : s.sfpolHalt
    · rw [exchAnswered_continue s2 (hp.trans hh)] at h
      exact .inr (.inl ⟨rfl, rfl, by cases h; rfl⟩)
    · rw [exchAnswered_halt s2 (hp.trans hh)] at h
      exact .inr (.inr ⟨rfl, rfl, by cases h; rfl⟩)
  · rw [hx] at h
    exact .inl ⟨rfl, by cases h; rfl⟩

/-! ### Every instruction answers a next state -/

theorem exec_next (i : Instr) (s : State) : ∃ t, exec i s = .next t := by
  cases i <;> exact ⟨_, rfl⟩

end Sys2Proof.Machine
end

