-- ==== Sys2Proof/Laws/Codec.lean ====
section
/-!
SUPPORT. The text form by position, and how the decoders of digits, bytes and data bytes succeed.
-/

namespace Sys2Proof.Machine

theorem hexVal_hexChar (d : BitVec 4) : hexVal (hexChar d) = some d := by revert d; decide

theorem dataText_length (l : List Byte) : (l.flatMap fun b => (0x20 : Byte) :: hexByte b).length = 3 * l.length := by
  induction l with
  | nil => rfl
  | cons b l ih => rw [List.flatMap_cons, List.length_append, ih]; simp [hexByte]; omega

theorem encodeText_split (m : Message) : encodeText m = [hexChar (m.hash.extractLsb' 12 4), hexChar (m.hash.extractLsb' 8 4),
   hexChar (m.hash.extractLsb' 4 4), hexChar (m.hash.extractLsb' 0 4), 0x20, respChar m.resp, 0x20,
   hexChar (m.cmd.extractLsb' 4 4), hexChar (m.cmd.extractLsb' 0 4), 0x20, hexChar m.len] ++
   (m.data.toList.take m.len.toNat).flatMap fun b => 0x20 :: hexByte b := by
  have e1 : (m.hash.extractLsb' 8 8).extractLsb' 4 4 = m.hash.extractLsb' 12 4 := by
    apply BitVec.eq_of_getLsbD_eq; intro i hi; simp only [BitVec.getLsbD_extractLsb']; interval_cases i <;> simp
  have e2 : (m.hash.extractLsb' 8 8).extractLsb' 0 4 = m.hash.extractLsb' 8 4 := by
    apply BitVec.eq_of_getLsbD_eq; intro i hi; simp only [BitVec.getLsbD_extractLsb']; interval_cases i <;> simp
  have e3 : (m.hash.extractLsb' 0 8).extractLsb' 4 4 = m.hash.extractLsb' 4 4 := by
    apply BitVec.eq_of_getLsbD_eq; intro i hi; simp only [BitVec.getLsbD_extractLsb']; interval_cases i <;> simp
  have e4 : (m.hash.extractLsb' 0 8).extractLsb' 0 4 = m.hash.extractLsb' 0 4 := by
    apply BitVec.eq_of_getLsbD_eq; intro i hi; simp only [BitVec.getLsbD_extractLsb']; interval_cases i <;> simp
  simp only [encodeText, hexWord, hexByte, hiByte, loByte, e1, e2, e3, e4]
  rfl

theorem dataText_get (l : List Byte) (k : Nat) (hk : k < l.length) :
   (l.flatMap fun b => (0x20 : Byte) :: hexByte b)[3*k]? = some 0x20 ∧
   (l.flatMap fun b => (0x20 : Byte) :: hexByte b)[3*k+1]? = some (hexChar (l[k].extractLsb' 4 4)) ∧
   (l.flatMap fun b => (0x20 : Byte) :: hexByte b)[3*k+2]? = some (hexChar (l[k].extractLsb' 0 4)) := by
  induction l generalizing k with
  | nil => simp at hk
  | cons b l ih =>
    cases k with
    | zero => simp [hexByte]
    | succ k =>
      have := ih k (by simpa using hk)
      simp only [List.flatMap_cons, hexByte, List.cons_append, List.nil_append] at this ⊢
      rw [show 3 * (k+1) = 3 * k + 1 + 1 + 1 by ring]
      simpa using this

theorem byteAt_eq_some (cs : List Byte) (i : Nat) (b : Byte) : byteAt cs i = some b ↔ ∃ h l, digitAt cs i = some h ∧ digitAt cs (i+1) = some l ∧ b = h ++ l := by
  simp [byteAt, Option.bind_eq_some_iff]
  constructor
  · rintro ⟨h, h1, l, h2, h3⟩; exact ⟨h, h1, l, h2, h3.symm⟩
  · rintro ⟨h, h1, l, h2, h3⟩; exact ⟨h, h1, l, h2, h3.symm⟩

theorem bytesAt_eq_some (cs : List Byte) (n : Nat) (bs : List Byte) : bytesAt cs n = some bs ↔ bs.length = n ∧ ∀ k (h : k < bs.length), byteAt cs (12+3*k) = some bs[k] := by
  induction n generalizing bs with
  | zero =>
    simp only [bytesAt, Option.some.injEq]
    constructor
    · rintro rfl; simp
    · rintro ⟨h, _⟩; exact (List.length_eq_zero_iff.mp h).symm
  | succ n ih =>
    simp only [bytesAt, Option.bind_eq_some_iff, ih, Option.some.injEq]
    constructor
    · rintro ⟨as, ⟨h1, h2⟩, b, h3, rfl⟩
      refine ⟨by simp [h1], fun k hk => ?_⟩
      by_cases hlt : k < as.length
      · rw [List.getElem_append_left hlt]; exact h2 k hlt
      · have : k = as.length := by simp at hk; omega
        subst this
        rw [List.getElem_append_right (by simp)]; simpa [h1] using h3
    · rintro ⟨h1, h2⟩
      refine ⟨bs.take n, ⟨by simp [h1], fun k hk => ?_⟩, bs[n]'(by omega), h2 n (by omega), ?_⟩
      · simp at hk ⊢; exact h2 k (by omega)
      · rw [List.take_append_getElem, List.take_of_length_le (by omega)]

theorem toNat_nibbles (h l : BitVec 4) : (h ++ l : Byte).toNat = h.toNat * 16 + l.toNat := by
  have := h.isLt; have := l.isLt
  rw [BitVec.toNat_append, ← Nat.shiftLeft_add_eq_or_of_lt (by omega), Nat.shiftLeft_eq]
theorem toNat_joinBytes (h l : Byte) : (joinBytes h l).toNat = h.toNat * 256 + l.toNat := by
  have := h.isLt; have := l.isLt
  rw [joinBytes, BitVec.toNat_append, ← Nat.shiftLeft_add_eq_or_of_lt (by omega), Nat.shiftLeft_eq]

theorem payloadOf_get (bs : List Byte) (k : Fin 8) : (payloadOf bs)[k] = bs.getD k.val 0 := by simp [payloadOf]

theorem decodeText_eq_some (cs : List Byte) (m : Message) : decodeText cs = some m ↔
   11 ≤ cs.length ∧ ∃ h1 h0 c bs, byteAt cs 0 = some h1 ∧ byteAt cs 2 = some h0 ∧ byteAt cs 7 = some c ∧ digitAt cs 10 = some m.len ∧
     m.len ≤ 8 ∧ 11 + 3 * m.len.toNat ≤ cs.length ∧ bytesAt cs m.len.toNat = some bs ∧
     m = ⟨0, c, cs[5]? == some 0x52, joinBytes h1 h0, m.len, payloadOf bs⟩ := by
  unfold decodeText
  split
  · simp; omega
  · simp only [Option.bind_eq_some_iff]
    constructor
    · rintro ⟨h1, e1, h0, e0, c, ec, l, el, h⟩
      split at h
      · cases h
      · split at h
        · cases h
        · obtain ⟨bs, hbs, h⟩ := Option.bind_eq_some_iff.mp h
          cases h
          exact ⟨by omega, h1, h0, c, bs, e1, e0, ec, el, BitVec.not_lt.mp (by assumption), by rename_i h9; exact Nat.not_lt.mp h9, hbs, rfl⟩
    · rintro ⟨hl, h1, h0, c, bs, e1, e0, ec, el, h8, hln, hbs, hm⟩
      refine ⟨h1, e1, h0, e0, c, ec, m.len, el, ?_⟩
      rw [if_neg (BitVec.not_lt.mpr h8), if_neg (by omega)]
      simp only [Option.bind_eq_some_iff]
      exact ⟨bs, hbs, by rw [Option.some.injEq]; exact hm.symm⟩

theorem hexChar_of_hexVal (c : Byte) (d : BitVec 4) (h : hexVal c = some d) : hexChar d = if 0x61 ≤ c ∧ c ≤ 0x66 then c - 0x20 else c := by
  revert c d; decide

end Sys2Proof.Machine
end

