-- ==== Sys2Proof/Laws/Decode.lean ====
section
/-!
SUPPORT. Bits of the encodings: the fields of a command word and of an identifier, and how the decoder finds a row
of the table of 30_encoding.md R74.
-/

namespace Sys2Proof

theorem cwWord_op (op : BitVec 5) (a b : BitVec 1) (sel : BitVec 5) (imm : BitVec 16) :
    (cwWord op a b sel imm).extractLsb' 27 5 = op := by
  apply BitVec.eq_of_getLsbD_eq
  intro i hi
  simp only [cwWord, BitVec.getLsbD_extractLsb', BitVec.getLsbD_append]
  interval_cases i <;> simp

theorem op_of_match {w mask pattern : CommandWord} (hm : mask.extractLsb' 27 5 = 31#5)
    (h : w &&& mask = pattern) : w.extractLsb' 27 5 = pattern.extractLsb' 27 5 := by
  rw [← h, BitVec.extractLsb'_and, hm]
  exact (BitVec.and_allOnes).symm

theorem no_match {w mask pattern : CommandWord} {op : BitVec 5} (hop : w.extractLsb' 27 5 = op)
    (hm : mask.extractLsb' 27 5 = 31#5) (hp : pattern.extractLsb' 27 5 ≠ op) :
    (w &&& mask == pattern) = false := by
  simp only [beq_eq_false_iff_ne]
  intro h
  exact hp (hop ▸ (op_of_match hm h).symm)

theorem row_masks_hold_op : ∀ r ∈ cwRows, r.mask.extractLsb' 27 5 = 31#5 := by
  simp [cwRows]

theorem cwA_cwWord (op : BitVec 5) (a b : BitVec 1) (sel : BitVec 5) (imm : BitVec 16) :
    cwA (cwWord op a b sel imm) = mregOfBit (a.getLsbD 0) := by
  simp only [cwA, cwWord, BitVec.getLsbD_append]
  simp

theorem cwB_cwWord (op : BitVec 5) (a b : BitVec 1) (sel : BitVec 5) (imm : BitVec 16) :
    cwB (cwWord op a b sel imm) = mregOfBit (b.getLsbD 0) := by
  simp only [cwB, cwWord, BitVec.getLsbD_append]
  simp

theorem cwSel_cwWord (op : BitVec 5) (a b : BitVec 1) (sel : BitVec 5) (imm : BitVec 16) :
    cwSel (cwWord op a b sel imm) = sel := by
  apply BitVec.eq_of_getLsbD_eq
  intro i hi
  simp only [cwSel, cwWord, BitVec.getLsbD_extractLsb', BitVec.getLsbD_append]
  interval_cases i <;> simp

theorem cwImm_cwWord (op : BitVec 5) (a b : BitVec 1) (sel : BitVec 5) (imm : BitVec 16) :
    cwImm (cwWord op a b sel imm) = imm := by
  apply BitVec.eq_of_getLsbD_eq
  intro i hi
  simp only [cwImm, cwWord, BitVec.getLsbD_extractLsb', BitVec.getLsbD_append]
  interval_cases i <;> simp

theorem cwCfg_eq (w : CommandWord) : cwCfg w = (cwImm w).extractLsb' 0 3 := by
  apply BitVec.eq_of_getLsbD_eq
  intro i hi
  simp only [cwCfg, cwImm, BitVec.getLsbD_extractLsb']
  interval_cases i <;> simp
theorem cwLow6_eq (w : CommandWord) : cwLow6 w = (cwImm w).extractLsb' 0 6 := by
  apply BitVec.eq_of_getLsbD_eq
  intro i hi
  simp only [cwLow6, cwImm, BitVec.getLsbD_extractLsb']
  interval_cases i <;> simp
theorem cwIdx_eq (w : CommandWord) : cwIdx w = (cwImm w).extractLsb' 8 6 := by
  apply BitVec.eq_of_getLsbD_eq
  intro i hi
  simp only [cwIdx, cwImm, BitVec.getLsbD_extractLsb']
  interval_cases i <;> simp
theorem cwCh_eq (w : CommandWord) : cwCh w = (cwImm w).extractLsb' 0 8 := by
  apply BitVec.eq_of_getLsbD_eq
  intro i hi
  simp only [cwCh, cwImm, BitVec.getLsbD_extractLsb']
  interval_cases i <;> simp
@[simp] theorem mregOfBit_mregBit (a : MReg) : mregOfBit (mregBit a)[0] = a := by cases a <;> rfl

theorem find_row {w : CommandWord} {op : BitVec 5} (hop : w.extractLsb' 27 5 = op) (r : CwRow)
   (l₁ l₂ : List CwRow) (hl : cwRows = l₁ ++ r :: l₂)
   (h1 : ∀ q ∈ l₁, q.pattern.extractLsb' 27 5 ≠ op) (hm : w &&& r.mask = r.pattern) :
   decodeCommand w = .ok (r.build w) := by
  have hf : cwRows.find? (fun r => w &&& r.mask == r.pattern) = some r := by
    rw [hl, List.find?_append]
    have : l₁.find? (fun r => w &&& r.mask == r.pattern) = none := by
      rw [List.find?_eq_none]
      intro q hq
      rw [no_match hop (row_masks_hold_op q (by rw [hl]; simp [hq])) (h1 q hq)]
      simp
    rw [this]
    simp [hm]
  simp [decodeCommand, hf]

theorem extract_low3 (c : BitVec 3) : (c.setWidth 16).extractLsb' 0 3 = c := by
  apply BitVec.eq_of_getLsbD_eq
  intro i hi
  simp only [BitVec.getLsbD_extractLsb', BitVec.getLsbD_setWidth]
  interval_cases i <;> simp
theorem extract_low6 (c : BitVec 6) : (c.setWidth 16).extractLsb' 0 6 = c := by
  apply BitVec.eq_of_getLsbD_eq
  intro i hi
  simp only [BitVec.getLsbD_extractLsb', BitVec.getLsbD_setWidth]
  interval_cases i <;> simp
theorem extract_mid6 (c : BitVec 6) (d : BitVec 8): (0#2 ++ c ++ d).extractLsb' 8 6 = c := by
  apply BitVec.eq_of_getLsbD_eq
  intro i hi
  simp only [BitVec.getLsbD_extractLsb', BitVec.getLsbD_append]
  interval_cases i <;> simp
theorem extract_low8 (c : BitVec 6) (d : BitVec 8): (0#2 ++ c ++ d).extractLsb' 0 8 = d := by
  apply BitVec.eq_of_getLsbD_eq
  intro i hi
  simp only [BitVec.getLsbD_extractLsb', BitVec.getLsbD_append]
  interval_cases i <;> simp

theorem mregBit_mregOfBit (b : Bool) : mregBit (mregOfBit b) = BitVec.ofBool b := by cases b <;> rfl

theorem packIdWith_eq_append (z : Bool) (p : BitVec 3) (c : BitVec 8) (r : Bool) (h : BitVec 16) :
    packIdWith z p c r h = BitVec.ofBool z ++ p ++ c ++ BitVec.ofBool r ++ h := by
  apply BitVec.eq_of_getLsbD_eq
  intro i hi
  simp only [packIdWith, packId, BitVec.getLsbD_append, BitVec.getLsbD_or, BitVec.getLsbD_shiftLeft,
    BitVec.truncate_eq_setWidth, BitVec.getLsbD_setWidth]
  interval_cases i <;> simp

theorem packId_eq_with (p : BitVec 3) (c : BitVec 8) (r : Bool) (h : BitVec 16) :
    packId p c r h = packIdWith false p c r h := by simp [packIdWith]

theorem idPrio_packIdWith (z : Bool) (p : BitVec 3) (c : BitVec 8) (r : Bool) (h : BitVec 16) :
    idPrio (packIdWith z p c r h) = p := by
  rw [packIdWith_eq_append]
  apply BitVec.eq_of_getLsbD_eq
  intro i hi
  simp only [idPrio, BitVec.getLsbD_extractLsb', BitVec.getLsbD_append]
  interval_cases i <;> simp
theorem idCmd_packIdWith (z : Bool) (p : BitVec 3) (c : BitVec 8) (r : Bool) (h : BitVec 16) :
    idCmd (packIdWith z p c r h) = c := by
  rw [packIdWith_eq_append]
  apply BitVec.eq_of_getLsbD_eq
  intro i hi
  simp only [idCmd, BitVec.getLsbD_extractLsb', BitVec.getLsbD_append]
  interval_cases i <;> simp
theorem idResp_packIdWith (z : Bool) (p : BitVec 3) (c : BitVec 8) (r : Bool) (h : BitVec 16) :
    idResp (packIdWith z p c r h) = r := by
  rw [packIdWith_eq_append]
  simp only [idResp, BitVec.getLsbD_append]
  simp
theorem idBit28_packIdWith (z : Bool) (p : BitVec 3) (c : BitVec 8) (r : Bool) (h : BitVec 16) :
    idBit28 (packIdWith z p c r h) = z := by
  rw [packIdWith_eq_append]
  simp only [idBit28, BitVec.getLsbD_append]
  simp
theorem idHash_packIdWith (z : Bool) (p : BitVec 3) (c : BitVec 8) (r : Bool) (h : BitVec 16) :
    idHash (packIdWith z p c r h) = h := by
  rw [packIdWith_eq_append]
  apply BitVec.eq_of_getLsbD_eq
  intro i hi
  simp only [idHash, BitVec.getLsbD_extractLsb', BitVec.getLsbD_append]
  interval_cases i <;> simp

theorem packIdWith_unpack (id : BitVec 29) :
    packIdWith (idBit28 id) (idPrio id) (idCmd id) (idResp id) (idHash id) = id := by
  rw [packIdWith_eq_append]
  apply BitVec.eq_of_getLsbD_eq
  intro i hi
  simp only [idBit28, idPrio, idCmd, idResp, idHash, BitVec.getLsbD_extractLsb', BitVec.getLsbD_append]
  interval_cases i <;> simp

theorem busArgsOf_busFrame (c : Byte) (g : BusArgs) : busArgsOf (busFrame c g) = g := by
  simp [busArgsOf, busFrame, idPrio_packIdWith, idResp_packIdWith, idHash_packIdWith, idBit28_packIdWith]

theorem busFrame_busArgsOf (f : Frame) : busFrame (idCmd f.id) (busArgsOf f) = f := by
  simp [busArgsOf, busFrame, packIdWith_unpack]

theorem toNat_packId (p : BitVec 3) (c : BitVec 8) (r : Bool) (h : BitVec 16) :
  (packId p c r h).toNat = p.toNat * 2 ^ 25 + c.toNat * 2 ^ 17 + r.toNat * 2 ^ 16 + h.toNat := by
  rw [packId_eq_with, packIdWith_eq_append]
  simp only [BitVec.toNat_append]
  have h0 : (BitVec.ofBool false).toNat = 0 := rfl
  have hr : (BitVec.ofBool r).toNat = r.toNat := by cases r <;> rfl
  have := p.isLt; have := c.isLt; have := h.isLt; have : r.toNat < 2 := by cases r <;> decide
  rw [h0, hr]
  rw [← Nat.shiftLeft_add_eq_or_of_lt (by omega), ← Nat.shiftLeft_add_eq_or_of_lt (by omega),
    ← Nat.shiftLeft_add_eq_or_of_lt (by omega), ← Nat.shiftLeft_add_eq_or_of_lt (by omega)]
  simp only [Nat.shiftLeft_eq]
  omega

theorem decodeCommand_ok {w : CommandWord} {i : Instr} (h : decodeCommand w = .ok i) :
    ∃ r ∈ cwRows, w &&& r.mask = r.pattern ∧ i = r.build w := by
  unfold decodeCommand at h
  split at h
  · rename_i r hr
    have hm := List.find?_some hr
    exact ⟨r, List.mem_of_find?_eq_some hr, by simpa using hm, by simpa using h.symm⟩
  · cases h

theorem decodeCommand_error {w : CommandWord} (h : ∀ r ∈ cwRows, w &&& r.mask ≠ r.pattern) :
    decodeCommand w = .error .illegalCommand := by
  have : cwRows.find? (fun r => w &&& r.mask == r.pattern) = none := by
    rw [List.find?_eq_none]; intro r hr; simpa using h r hr
  simp [decodeCommand, this]

end Sys2Proof
end

