-- ==== Sys2Proof/Laws/Exec.lean ====
section
/-!
SUPPORT. The common frame of all instructions: what any of them can do to the registers that few of them write.
-/

namespace Sys2Proof.Machine

/-- What an instruction can do to the registers that few instructions write. -/
structure ExecFrame (i : Instr) (s t : State) : Prop where
  /-- at most one response, and then the block is idle -/
  responses : t.env.responses = s.env.responses ∨ ∃ r, t.env.responses = r :: s.env.responses ∧ t.phase = .idle
  /-- at most one offer, of an encoded message -/
  offers : t.env.offers = s.env.offers ∨ ∃ m acc, t.env.offers = ⟨encodeFrame m, acc⟩ :: s.env.offers
  /-- `HASH` changes only by `SETHASH` during construction -/
  hash : t.hash = s.hash ∨ s.active = false ∧ i = .sethash t.hash
  /-- `ACTIVE` is only ever set, by `ACTIVATE` -/
  active : t.active = s.active ∨ i = .activate ∧ t.active = true
  phase : t.phase = s.phase ∨ t.phase = .idle ∨ t.phase = .ngDraw ∨ (∃ a b, i = .exch a b)
  turns : t.env.turns = s.env.turns

/-- Every instruction keeps its frame. -/
theorem exec_frame (i : Instr) (s t : State) (h : exec i s = .next t) : ExecFrame i s t := by
  rcases i with _|a|⟨a,sel,imm⟩|⟨a,sel⟩|a|a|⟨a,b⟩|_|_|imm|imm|_|sel|mask|a|a|⟨idx,ch⟩|idx|n|_|_|_|_|_|_|_|_
  case exch =>
    obtain ⟨s2, h2, ⟨_, rfl⟩ | ⟨_, _, rfl⟩ | ⟨_, _, rfl⟩⟩ := execExch_cases h <;> subst h2 <;> constructor <;> simp
  all_goals simp only [exec, execNop, execClear, execLdf, execRdf, execSend, execRecv, execNegotiate,
    execActivate, execSethash, execSettmo, execSetcfg, execRdsr, execClrerr, execTxenc, execTxdec, execLdt, execRdt,
    execSettl, execBusSystem, execBusSpeed, execBusDirection, execBusFunction, execBusReadConfig,
    execBusWriteConfig, execBusAccessory, execBusPing, loadField, readField, sendAnswered, recvAnswered,
    activated, assignHash, readSysReg, txdecAnswered, loadChar, readChar, setTextLen] at h
  all_goals cases h; (try split) <;> (try split) <;> constructor <;> simp_all

end Sys2Proof.Machine
end

