-- ==== Sys2Proof/Laws/Facade.lean ====
section
/-!
SUPPORT. The address ranges of the decoder families are disjoint (20_memory.md R41), and how a composition of the
surrounding software fails (46_command_layouts.md R211, R212).
-/

namespace Sys2Proof

/-- `rangesApart` says exactly that two ranges that are not empty share no address. -/
theorem Config.rangesApart_iff (b₁ b₂ : BitVec 16) (n₁ n₂ : Nat) (h₁ : 0 < n₁) (h₂ : 0 < n₂) :
    Config.rangesApart b₁ n₁ b₂ n₂ = true ↔ ∀ a, Config.inRange b₁ n₁ a = true → Config.inRange b₂ n₂ a = false := by
  simp only [Config.rangesApart, Config.inRange, Bool.and_eq_true, decide_eq_true_eq, decide_eq_false_iff_not]
  constructor
  · rintro ⟨h, h'⟩ a ha ha'
    bv_omega
  · intro h
    refine ⟨?_, ?_⟩
    · by_contra hc
      exact h b₂ (by omega) (by simpa using h₂)
    · by_contra hc
      exact h b₁ (by simpa using h₁) (by omega)

theorem Config.mem_decoderFamilies (f : Config.DecoderFamily) : f ∈ Config.decoderFamilies := by
  cases f <;> decide

theorem Config.decoderSpan_pos (f : Config.DecoderFamily) : 0 < Config.decoderSpan f := by
  unfold Config.decoderSpan
  split <;> omega

/-- The bases and lengths satisfy the constraint of R7. -/
theorem Config.decoderRanges_apart {f g : Config.DecoderFamily} (h : f ≠ g) :
    Config.rangesApart (Config.decoderBase f) (Config.decoderSpan f) (Config.decoderBase g) (Config.decoderSpan g)
      = true := by
  unfold Config.decoderBase Config.decoderSpan
  split
  · rename_i hl
    have hf := List.all_eq_true.mp hl f (Config.mem_decoderFamilies f)
    have hg := List.all_eq_true.mp hf g (Config.mem_decoderFamilies g)
    simpa [h] using hg
  · cases f <;> cases g <;> first | exact absurd rfl h | decide

/-- No address is in the ranges of two families (20_memory.md R41). -/
theorem Config.decoderRanges_disjoint {f g : Config.DecoderFamily} (h : f ≠ g) (a : BitVec 16)
    (hf : Config.inRange (Config.decoderBase f) (Config.decoderSpan f) a = true) :
    Config.inRange (Config.decoderBase g) (Config.decoderSpan g) a = false :=
  (Config.rangesApart_iff _ _ _ _ (Config.decoderSpan_pos f) (Config.decoderSpan_pos g)).mp
    (Config.decoderRanges_apart h) a hf

namespace Machine

/-- The address of a decoder whose offset is inside its family's range is in that range. -/
theorem familyAddress_inRange (f : Config.DecoderFamily) (o : BitVec 16) (h : o.toNat < Config.decoderSpan f) :
    Config.inRange (Config.decoderBase f) (Config.decoderSpan f) (familyAddress f o) = true := by
  have hs : Config.decoderBase f + o - Config.decoderBase f = o := by bv_omega
  simpa only [Config.inRange, familyAddress, decoderAddress, hs, decide_eq_true_eq] using h

/-- Decoders of different families have different addresses. -/
theorem familyAddress_ne {f g : Config.DecoderFamily} (h : f ≠ g) (o p : BitVec 16)
    (ho : o.toNat < Config.decoderSpan f) (hp : p.toNat < Config.decoderSpan g) :
    familyAddress f o ≠ familyAddress g p := by
  intro he
  have := Config.decoderRanges_disjoint h _ (familyAddress_inRange f o ho)
  rw [he, familyAddress_inRange g p hp] at this
  exact absurd this (by decide)

theorem allRead_eq_none (os : List Outcome) : allRead os = none ↔ none ∈ os := by
  induction os with
  | nil => simp [allRead]
  | cons o os ih => cases o <;> simp [allRead, ih]

/-- A pseudo-operation that has ended failed exactly when one of its exchanges did (R212). -/
theorem HostOp.result_failed (h : HostOp) (xs : List (Response × Message)) (he : h.next (h.outcomes xs) = none) :
    h.result xs = .failed ↔ none ∈ h.outcomes xs := by
  rw [← allRead_eq_none]
  simp only [HostOp.result, he]
  cases allRead (h.outcomes xs) <;> simp

/-- A toggle whose query failed asks for nothing further and fails (R211). -/
theorem HostOp.toggle_query_failed (addr : BitVec 16) (i : Byte) (m : Message) (r : Response) (hr : r.ok = false) :
    (HostOp.toggleDir addr).next ((HostOp.toggleDir addr).outcomes [(r, m)]) = none ∧
    (HostOp.toggleDir addr).result [(r, m)] = .failed ∧
    (HostOp.toggleFunc addr i).next ((HostOp.toggleFunc addr i).outcomes [(r, m)]) = none ∧
    (HostOp.toggleFunc addr i).result [(r, m)] = .failed := by
  simp [HostOp.result, HostOp.outcomes, HostOp.answered, HostOp.next, PseudoOp.outcome, hr, queried, toggleDirNext,
    toggleFuncNext, allRead]

end Machine

end Sys2Proof
end

