-- ==== Sys2Proof/Laws/PerInstr.lean ====
section
/-!
SUPPORT. One statement about every instruction as syntax, lemma by lemma: which place its encoding is for, and the
number of its row of the opcode table in it.
-/

namespace Sys2Proof.Laws

/-- The number of an instruction's row: the `op` of 30_encoding.md R74, or the command code of R77. -/
def rowNumber : Instr → Nat
  | .nop => 0x00
  | .clear _ => 0x01
  | .ldf _ _ _ => 0x02
  | .rdf _ _ => 0x03
  | .send _ => 0x04
  | .recv _ => 0x05
  | .exch _ _ => 0x06
  | .negotiate => 0x07
  | .activate => 0x08
  | .sethash _ => 0x09
  | .settmo _ => 0x0A
  | .setcfg _ => 0x0B
  | .rdsr _ => 0x0C
  | .clrerr _ => 0x0D
  | .txenc _ => 0x10
  | .txdec _ => 0x11
  | .ldt _ _ => 0x12
  | .rdt _ => 0x13
  | .settl _ => 0x14
  | .busSystem _ => 0x00
  | .busSpeed _ => 0x04
  | .busDirection _ => 0x05
  | .busFunction _ => 0x06
  | .busReadConfig _ => 0x07
  | .busWriteConfig _ => 0x08
  | .busAccessory _ => 0x0B
  | .busPing _ => 0x18

/-- `x` is a command word with operation code `n` and reserved bits 0 (R70). -/
def CommandOf (n : Nat) (x : Wire) : Prop :=
  ∃ w, x = .command w ∧ (w.extractLsb' 27 5).toNat = n ∧ w.extractLsb' 16 4 = 0

/-- `x` is a frame with command code `n` (R61). -/
def FrameOf (n : Nat) (x : Wire) : Prop := ∃ f, x = .frame f ∧ (idCmd f.id).toNat = n

theorem cwWord_rsv (op : BitVec 5) (a b : BitVec 1) (sel : BitVec 5) (imm : BitVec 16) :
    (cwWord op a b sel imm).extractLsb' 16 4 = 0 := by
  apply BitVec.eq_of_getLsbD_eq
  intro i hi
  simp only [cwWord, BitVec.getLsbD_extractLsb', BitVec.getLsbD_append]
  interval_cases i <;> simp

theorem commandOf_cwWord (op : BitVec 5) (a b : BitVec 1) (sel : BitVec 5) (imm : BitVec 16) :
    CommandOf op.toNat (.command (cwWord op a b sel imm)) :=
  ⟨_, rfl, by rw [cwWord_op], cwWord_rsv op a b sel imm⟩

theorem frameOf_busFrame (c : Byte) (g : BusArgs) : FrameOf c.toNat (.frame (busFrame c g)) :=
  ⟨_, rfl, by simp [busFrame, idCmd_packIdWith]⟩

/-- The encoding is a command word of the instruction's `op`, or a frame with its command code. -/
def EncodesItsRow.Statement (i : Instr) : Prop :=
  CommandOf (rowNumber i) (encode i) ∨ FrameOf (rowNumber i) (encode i)

namespace EncodesItsRow

theorem nop : Statement .nop := .inl (commandOf_cwWord 0x00 _ _ _ _)
theorem clear (a : MReg) : Statement (.clear a) := .inl (commandOf_cwWord 0x01 _ _ _ _)
theorem ldf (a : MReg) (sel : BitVec 5) (imm : BitVec 16) : Statement (.ldf a sel imm) :=
  .inl (commandOf_cwWord 0x02 _ _ _ _)
theorem rdf (a : MReg) (sel : BitVec 5) : Statement (.rdf a sel) := .inl (commandOf_cwWord 0x03 _ _ _ _)
theorem send (a : MReg) : Statement (.send a) := .inl (commandOf_cwWord 0x04 _ _ _ _)
theorem recv (a : MReg) : Statement (.recv a) := .inl (commandOf_cwWord 0x05 _ _ _ _)
theorem exch (a b : MReg) : Statement (.exch a b) := .inl (commandOf_cwWord 0x06 _ _ _ _)
theorem negotiate : Statement .negotiate := .inl (commandOf_cwWord 0x07 _ _ _ _)
theorem activate : Statement .activate := .inl (commandOf_cwWord 0x08 _ _ _ _)
theorem sethash (imm : BitVec 16) : Statement (.sethash imm) := .inl (commandOf_cwWord 0x09 _ _ _ _)
theorem settmo (imm : BitVec 16) : Statement (.settmo imm) := .inl (commandOf_cwWord 0x0A _ _ _ _)
theorem setcfg (cfg : BitVec 3) : Statement (.setcfg cfg) := .inl (commandOf_cwWord 0x0B _ _ _ _)
theorem rdsr (sel : BitVec 5) : Statement (.rdsr sel) := .inl (commandOf_cwWord 0x0C _ _ _ _)
theorem clrerr (mask : BitVec 6) : Statement (.clrerr mask) := .inl (commandOf_cwWord 0x0D _ _ _ _)
theorem txenc (a : MReg) : Statement (.txenc a) := .inl (commandOf_cwWord 0x10 _ _ _ _)
theorem txdec (a : MReg) : Statement (.txdec a) := .inl (commandOf_cwWord 0x11 _ _ _ _)
theorem ldt (idx : BitVec 6) (ch : Byte) : Statement (.ldt idx ch) := .inl (commandOf_cwWord 0x12 _ _ _ _)
theorem rdt (idx : BitVec 6) : Statement (.rdt idx) := .inl (commandOf_cwWord 0x13 _ _ _ _)
theorem settl (n : BitVec 6) : Statement (.settl n) := .inl (commandOf_cwWord 0x14 _ _ _ _)
theorem busSystem (g : BusArgs) : Statement (.busSystem g) := .inr (frameOf_busFrame 0x00 g)
theorem busSpeed (g : BusArgs) : Statement (.busSpeed g) := .inr (frameOf_busFrame 0x04 g)
theorem busDirection (g : BusArgs) : Statement (.busDirection g) := .inr (frameOf_busFrame 0x05 g)
theorem busFunction (g : BusArgs) : Statement (.busFunction g) := .inr (frameOf_busFrame 0x06 g)
theorem busReadConfig (g : BusArgs) : Statement (.busReadConfig g) := .inr (frameOf_busFrame 0x07 g)
theorem busWriteConfig (g : BusArgs) : Statement (.busWriteConfig g) := .inr (frameOf_busFrame 0x08 g)
theorem busAccessory (g : BusArgs) : Statement (.busAccessory g) := .inr (frameOf_busFrame 0x0B g)
theorem busPing (g : BusArgs) : Statement (.busPing g) := .inr (frameOf_busFrame 0x18 g)

end EncodesItsRow

end Sys2Proof.Laws
end

