-- ==== Sys2Proof/Laws/Step.lean ====
section
/-!
SUPPORT. What a step can do, said once: `step_cases` splits a step into the turns of R5 and the micro-steps of
R20, with their guards; the statements about steps are case analyses of it.
-/

namespace Sys2Proof.Machine

/-- The micro-steps of the engine, from the state `e` its turn starts in to the state `t` it ends in. -/
inductive EngineCase (e t : State) : Prop where
  /-- no word is presented -/
  | wait (hp : e.phase = .idle) (hw : e.env.port = []) (ht : t = e)
  /-- a word is taken -/
  | taken (w : CommandWord) (ws : List CommandWord) (i : Instr) (hp : e.phase = .idle)
      (hw : e.env.port = w :: ws) (hd : decode (.command w) = .ok i) (ht : exec i (e.setPort ws) = .next t)
  /-- an illegal word is taken -/
  | illegal (w : CommandWord) (ws : List CommandWord) (hp : e.phase = .idle) (hw : e.env.port = w :: ws)
      (ht : t = (e.setPort ws).refuse .illegalCommand)
  | poll (hp : e.phase = .exPoll) (ht : t = exPoll e)
  | draw (hp : e.phase = .ngDraw) (ht : t = ngDraw e)
  | ping (hp : e.phase = .ngSend) (ht : t = ngSend e)
  | settle (hp : e.phase = .ngSettle) (ht : t = ngSettle e)
  | drain (hp : e.phase = .ngDrain) (ht : t = ngDrain e)
  /-- a halted block is given a turn -/
  | halted (hp : e.phase = .halted) (ht : t = e)

/-- The turns: the engine's, the reset input's, a frame's, another agent's. -/
inductive StepCase (s t : State) : Prop where
  | engine (e : State) (he : s.EngineMoves e) (hc : EngineCase e t)
  | reset (ts : List Turn) (hs : s.env.turns = .reset :: ts) (ht : t = (s.setTurns ts).resetBlock)
  | bus (f : Frame) (ts : List Turn) (hs : s.env.turns = .bus f :: ts) (ht : t = (s.setTurns ts).deliver f)
  | outside (m : AgentMove) (ts : List Turn) (hs : s.env.turns = .outside m :: ts) (ht : t = (s.setTurns ts).outside m)

theorem engineTurn_cases {e t : State} (h : engineTurn e = .next t) : EngineCase e t := by
  unfold engineTurn at h
  split at h
  · rename_i hp
    unfold idleTurn at h
    split at h
    · rename_i hw
      exact .wait hp hw (by cases h; rfl)
    · rename_i w ws hw
      unfold takeWord at h
      split at h
      · rename_i i hd
        exact .taken w ws i hp hw hd h
      · exact .illegal w ws hp hw (by cases h; rfl)
  · exact .poll ‹_› (by cases h; rfl)
  · exact .draw ‹_› (by cases h; rfl)
  · exact .ping ‹_› (by cases h; rfl)
  · exact .settle ‹_› (by cases h; rfl)
  · exact .drain ‹_› (by cases h; rfl)
  · exact .halted ‹_› (by cases h; rfl)

theorem busFrame_of_code {f : Frame} {n : Nat} (h : (idCmd f.id).toNat = n) :
    busFrame (BitVec.ofNat 8 n) (busArgsOf f) = f := by
  subst h
  rw [BitVec.ofNat_toNat, BitVec.setWidth_eq]
  exact busFrame_busArgsOf f

/-- Whatever its code, a frame of a bus turn reaches the transport as it is. -/
theorem busTurn_delivers (f : Frame) (s : State) : busTurn f s = .next (s.deliver f) := by
  show (match decodeBus f with
    | .ok i => exec i s
    | .error _ => .next (s.deliver f)) = _
  unfold decodeBus
  split
  · rename_i i h
    split at h <;> rename_i hc <;> cases h <;>
      exact congrArg (fun g => Host.Outcome.next (s.deliver g)) (busFrame_of_code hc)
  · rfl

theorem step_cases {s t : State} (h : step s = .next t) : StepCase s t := by
  unfold step turn at h
  split at h
  · rename_i hs
    unfold unscheduledTurn at h
    split at h
    · cases h
    · exact .engine s (.inl ⟨hs, rfl⟩) (engineTurn_cases h)
  · rename_i ts hs
    exact .engine _ (.inr ⟨ts, hs, rfl⟩) (engineTurn_cases h)
  · rename_i ts hs
    exact .reset ts hs (by cases h; rfl)
  · rename_i f ts hs
    rw [busTurn_delivers] at h
    exact .bus f ts hs (by cases h; rfl)
  · rename_i m ts hs
    exact .outside m ts hs (by cases h; rfl)

/-- The state an engine's turn starts in differs in the turns alone. -/
theorem State.EngineMoves.eq_setTurns {s e : State} (h : s.EngineMoves e) : ∃ ts, e = s.setTurns ts := by
  rcases h with ⟨h, rfl⟩ | ⟨ts, -, rfl⟩
  · exact ⟨_, rfl⟩
  · exact ⟨ts, rfl⟩

/-- An engine's turn of a block that is not halted. -/
theorem step_engine {s e : State} (h : s.EngineMoves e) (hp : s.phase ≠ .halted) : step s = engineTurn e := by
  rcases h with ⟨h, rfl⟩ | ⟨ts, h, rfl⟩
  · simp only [step, turn, h, unscheduledTurn, if_neg hp]
  · simp only [step, turn, h]

theorem step_reset {s : State} {ts : List Turn} (h : s.env.turns = .reset :: ts) :
    step s = .next (s.setTurns ts).resetBlock := by
  simp only [step, turn, h]

theorem step_bus {s : State} {f : Frame} {ts : List Turn} (h : s.env.turns = .bus f :: ts) :
    step s = busTurn f (s.setTurns ts) := by
  simp only [step, turn, h]

theorem step_outside {s : State} {m : AgentMove} {ts : List Turn} (h : s.env.turns = .outside m :: ts) :
    step s = .next ((s.setTurns ts).outside m) := by
  simp only [step, turn, h]

/-- An idle block with an empty port waits. -/
theorem step_waits {s e : State} (h : s.EngineMoves e) (hp : s.phase = .idle) (hw : s.env.port = []) :
    step s = .next e := by
  obtain ⟨ts, rfl⟩ := h.eq_setTurns
  rw [step_engine h (by rw [hp]; decide)]
  simp only [engineTurn, idleTurn, State.setTurns_phase, State.setTurns_env_port, hp, hw]

theorem State.EngineMoves.phase_eq {s e : State} (h : s.EngineMoves e) : e.phase = s.phase := by
  obtain ⟨ts, rfl⟩ := h.eq_setTurns
  rfl

theorem engineTurn_exPoll {e : State} (h : e.phase = .exPoll) : engineTurn e = .next (exPoll e) := by
  simp only [engineTurn, h]

theorem engineTurn_ngDraw {e : State} (h : e.phase = .ngDraw) : engineTurn e = .next (ngDraw e) := by
  simp only [engineTurn, h]

theorem engineTurn_ngSend {e : State} (h : e.phase = .ngSend) : engineTurn e = .next (ngSend e) := by
  simp only [engineTurn, h]

theorem engineTurn_ngSettle {e : State} (h : e.phase = .ngSettle) : engineTurn e = .next (ngSettle e) := by
  simp only [engineTurn, h]

theorem engineTurn_ngDrain {e : State} (h : e.phase = .ngDrain) : engineTurn e = .next (ngDrain e) := by
  simp only [engineTurn, h]

theorem engineTurn_idle {e : State} (h : e.phase = .idle) : engineTurn e = idleTurn e := by
  simp only [engineTurn, h]

theorem engineTurn_halted {e : State} (h : e.phase = .halted) : engineTurn e = .next e := by
  simp only [engineTurn, h]

theorem core_run_succ (M : Host.Core) (k : Nat) (s t : M.State) (h : M.step s = .next t) :
    M.run (k + 1) s = M.run k t := by
  simp only [Host.Core.run, h]

/-- A run is a step and a run. -/
theorem run_succ {k : Nat} {s t : State} (h : step s = .next t) :
    Sys2Proof.core.run (k + 1) s = Sys2Proof.core.run k t :=
  core_run_succ Sys2Proof.core k s t h

/-- A stuck machine faults. -/
theorem step_stuck {s : State} (h : s.Stuck) : step s = .fault .halted := by
  obtain ⟨hp, ht⟩ := h
  simp only [step, turn, ht, unscheduledTurn, if_pos hp]

/-- An engine's turn always answers a next state. -/
theorem engineTurn_next (e : State) : ∃ t, engineTurn e = .next t := by
  unfold engineTurn
  split
  · unfold idleTurn
    split
    · exact ⟨_, rfl⟩
    · unfold takeWord
      split
      · exact exec_next _ _
      · exact ⟨_, rfl⟩
  all_goals exact ⟨_, rfl⟩

end Sys2Proof.Machine
end

