-- ==== Sys2Proof/Machine/Assembler.lean ====
section
/-!
DEFINITION. The mnemonic syntax of 30_encoding.md R79: an operation as its mnemonic and operands, each one string.
The spec's own notation for its examples; the block never sees it.
-/

namespace Sys2Proof.Machine

/-- `M0` or `M1`. -/
def asmReg : MReg → String
  | .m0 => "M0"
  | .m1 => "M1"

/-- A number in decimal. -/
def asmNum (n : Nat) : String := String.ofList (Nat.toDigits 10 n)

/-- A field by the name of R71; a selector that names nothing as its number. -/
def asmField (sel : BitVec 5) : String :=
  match fieldOf sel with
  | some .prio => "PRIO"
  | some .cmd => "CMD"
  | some .resp => "RESP"
  | some .hash => "HASH"
  | some .len => "LEN"
  | some (.byte k) => "D" ++ asmNum k.val
  | some (.pair k) => "W" ++ asmNum k.val
  | none => asmNum sel.toNat

/-- A system register by the name of 10_state.md R27; a number that names nothing as itself. -/
def asmSysReg (sel : BitVec 5) : String :=
  match sysRegOf sel with
  | some .hash => "HASH"
  | some .timeout => "TIMEOUT"
  | some .cfg => "CFG"
  | some .status => "STATUS"
  | some .err => "ERR"
  | some .txtlen => "TXTLEN"
  | none => asmNum sel.toNat

/-- A character in quotes when it is a printable ASCII code, else its number (R79, 44_text_codec.md R161). -/
def asmChar (c : Byte) : String :=
  if 0x20 ≤ c ∧ c ≤ 0x7E then "'" ++ String.singleton (Char.ofNat c.toNat) ++ "'" else asmNum c.toNat

/-- The mnemonic of R74 and the operands (R79). A protocol command code is no operation and has no syntax. -/
def asm : Instr → Option (List String)
  | .nop => some ["NOP"]
  | .clear a => some ["CLEAR", asmReg a]
  | .ldf a sel imm => some ["LDF", asmReg a, asmField sel, asmNum imm.toNat]
  | .rdf a sel => some ["RDF", asmReg a, asmField sel]
  | .send a => some ["SEND", asmReg a]
  | .recv a => some ["RECV", asmReg a]
  | .exch a b => some ["EXCH", asmReg a, asmReg b]
  | .negotiate => some ["NEGOTIATE"]
  | .activate => some ["ACTIVATE"]
  | .sethash imm => some ["SETHASH", asmNum imm.toNat]
  | .settmo imm => some ["SETTMO", asmNum imm.toNat]
  | .setcfg cfg => some ["SETCFG", asmNum cfg.toNat]
  | .rdsr sel => some ["RDSR", asmSysReg sel]
  | .clrerr mask => some ["CLRERR", asmNum mask.toNat]
  | .txenc a => some ["TXENC", asmReg a]
  | .txdec a => some ["TXDEC", asmReg a]
  | .ldt idx ch => some ["LDT", asmNum idx.toNat, asmChar ch]
  | .rdt idx => some ["RDT", asmNum idx.toNat]
  | .settl n => some ["SETTL", asmNum n.toNat]
  | .busSystem _ => none
  | .busSpeed _ => none
  | .busDirection _ => none
  | .busFunction _ => none
  | .busReadConfig _ => none
  | .busWriteConfig _ => none
  | .busAccessory _ => none
  | .busPing _ => none

end Sys2Proof.Machine
end

