-- ==== Sys2Proof/Tests/Slice0.lean ====
section
/-!
SUPPORT. The model's own tests. Every expected value is the spec's: the vectors V<n>, T<n>, P<n> of
95_test_vectors.md and the examples of the rules named. The last part shows, for each statement with hypotheses, values
that meet them.
-/

namespace Sys2Proof.Tests

open Sys2Proof Sys2Proof.Machine

/-! ### States to test on -/

/-- A payload written out. -/
def pay8 (a b c d e f g h : Byte) : Payload := #v[a, b, c, d, e, f, g, h]

/-- The reset state with a known budget and an environment. -/
def base (env : Env) : State := { State.reset with timeout := 1000, env := env }

/-- The reset state with a known budget. -/
def quiet : State := base Env.start

/-- The next state of an outcome, or a halted state that no test expects. -/
def after (o : Host.Outcome State Fault Refusal) : State :=
  match o with
  | .next t => t
  | _ => { quiet with phase := .halted }

/-- The response an instruction delivers. -/
def answer (i : Instr) (s : State) : Option Response := (after (exec i s)).env.responses.head?

/-- The speed request of T2. -/
def speedRequest : Message := ⟨0, 0x04, false, 0, 6, pay8 0 0 0x40 0x07 0x01 0xF4 0 0⟩

/-- The speed response of V25. -/
def speedFrame : Frame := ⟨0x00094711, true, 6, pay8 0 0 0x40 0x07 0x01 0xF4 0 0⟩

/-- A state with the speed request in `M0` and an identity. -/
def ready (env : Env) : State := { base env with m0 := speedRequest, hash := 0xDF24 }

/-! ### Well-formedness: the one check, at every row that has it -/

/-- What a frame of length `d` carries. -/
def argsOf (d : BitVec 4) : BusArgs := ⟨false, 0, false, 0x4711, true, d, Payload.zero⟩

theorem test_dlen_8_is_well_formed : (Instr.busPing (argsOf 8)).WellFormed := by decide
theorem test_ill_formed_busSystem : ¬ (Instr.busSystem (argsOf 9)).WellFormed := by decide
theorem test_ill_formed_busSpeed : ¬ (Instr.busSpeed (argsOf 9)).WellFormed := by decide
theorem test_ill_formed_busDirection : ¬ (Instr.busDirection (argsOf 9)).WellFormed := by decide
theorem test_ill_formed_busFunction : ¬ (Instr.busFunction (argsOf 9)).WellFormed := by decide
theorem test_ill_formed_busReadConfig : ¬ (Instr.busReadConfig (argsOf 9)).WellFormed := by decide
theorem test_ill_formed_busWriteConfig : ¬ (Instr.busWriteConfig (argsOf 9)).WellFormed := by decide
theorem test_ill_formed_busAccessory : ¬ (Instr.busAccessory (argsOf 9)).WellFormed := by decide
theorem test_ill_formed_busPing : ¬ (Instr.busPing (argsOf 15)).WellFormed := by decide

/-! ### Decoding: words written bit by bit, `op a b sel rsv imm` (30_encoding.md R70, R74) -/

theorem test_decode_nop : decode (.command 0b00000_0_0_00000_0000_0000000000000000) = .ok .nop := by decide
theorem test_decode_clear : decode (.command 0b00001_1_0_00000_0000_0000000000000000) = .ok (.clear .m1) := by decide
theorem test_decode_ldf :
    decode (.command 0b00010_0_0_10010_0000_0100000000000111) = .ok (.ldf .m0 18 0x4007) := by decide
theorem test_decode_rdf : decode (.command 0b00011_1_0_10100_0000_0000000000000000) = .ok (.rdf .m1 20) := by decide
theorem test_decode_send : decode (.command 0b00100_1_0_00000_0000_0000000000000000) = .ok (.send .m1) := by decide
theorem test_decode_recv : decode (.command 0b00101_1_0_00000_0000_0000000000000000) = .ok (.recv .m1) := by decide
theorem test_decode_exch : decode (.command 0b00110_0_1_00000_0000_0000000000000000) = .ok (.exch .m0 .m1) := by decide
theorem test_decode_negotiate : decode (.command 0b00111_0_0_00000_0000_0000000000000000) = .ok .negotiate := by decide
theorem test_decode_activate : decode (.command 0b01000_0_0_00000_0000_0000000000000000) = .ok .activate := by decide
theorem test_decode_sethash :
    decode (.command 0b01001_0_0_00000_0000_1101111100100100) = .ok (.sethash 0xDF24) := by decide
theorem test_decode_settmo : decode (.command 0b01010_0_0_00000_0000_0000001111101000) = .ok (.settmo 1000) := by decide
theorem test_decode_setcfg : decode (.command 0b01011_0_0_00000_0000_0000000000000100) = .ok (.setcfg 4) := by decide
theorem test_decode_rdsr : decode (.command 0b01100_0_0_00100_0000_0000000000000000) = .ok (.rdsr 4) := by decide
theorem test_decode_clrerr : decode (.command 0b01101_0_0_00000_0000_0000000000111111) = .ok (.clrerr 0x3F) := by decide
theorem test_decode_txenc : decode (.command 0b10000_1_0_00000_0000_0000000000000000) = .ok (.txenc .m1) := by decide
theorem test_decode_txdec : decode (.command 0b10001_1_0_00000_0000_0000000000000000) = .ok (.txdec .m1) := by decide
theorem test_decode_ldt :
    decode (.command 0b10010_0_0_00000_0000_00_000101_01010010) = .ok (.ldt 5 0x52) := by decide
theorem test_decode_rdt : decode (.command 0b10011_0_0_00000_0000_00_011011_00000000) = .ok (.rdt 27) := by decide
theorem test_decode_settl : decode (.command 0b10100_0_0_00000_0000_0000000000_011101) = .ok (.settl 29) := by decide

/-! Identifiers written bit by bit, `0 prio cmd resp hash` (R61, R77). -/

/-- A frame with an identifier and no payload. -/
def frameOf (id : BitVec 29) : Frame := ⟨id, true, 0, Payload.zero⟩

/-- What that frame carries when its other fields are `p`, `r`, `h`. -/
def carried (z : Bool) (p : BitVec 3) (r : Bool) (h : BitVec 16) : BusArgs := ⟨z, p, r, h, true, 0, Payload.zero⟩

theorem test_decode_busSystem : decode (.frame (frameOf 0b0_000_00000000_0_1101111100100100)) =
    .ok (.busSystem (carried false 0 false 0xDF24)) := by decide
theorem test_decode_busSpeed : decode (.frame (frameOf 0b0_000_00000100_0_1101111100100100)) =
    .ok (.busSpeed (carried false 0 false 0xDF24)) := by decide
theorem test_decode_busDirection : decode (.frame (frameOf 0b0_000_00000101_1_0100011100010001)) =
    .ok (.busDirection (carried false 0 true 0x4711)) := by decide
theorem test_decode_busFunction : decode (.frame (frameOf 0b0_111_00000110_0_0000000000000000)) =
    .ok (.busFunction (carried false 7 false 0)) := by decide
theorem test_decode_busReadConfig : decode (.frame (frameOf 0b0_000_00000111_0_1101111100100100)) =
    .ok (.busReadConfig (carried false 0 false 0xDF24)) := by decide
theorem test_decode_busWriteConfig : decode (.frame (frameOf 0b0_000_00001000_0_1101111100100100)) =
    .ok (.busWriteConfig (carried false 0 false 0xDF24)) := by decide
theorem test_decode_busAccessory : decode (.frame (frameOf 0b0_101_00001011_1_0100011100010001)) =
    .ok (.busAccessory (carried false 5 true 0x4711)) := by decide
theorem test_decode_busPing : decode (.frame (frameOf 0b1_000_00011000_1_1101111100100100)) =
    .ok (.busPing (carried true 0 true 0xDF24)) := by decide
theorem test_decode_unlisted_code : decode (.frame (frameOf 0x00020000)) = .error .unlistedCode := by decide

/-! V100: words that match no row. -/

theorem test_illegal_words_1 :
    decode (.command 0x70000000) = .error .illegalCommand ∧
    decode (.command 0x78000000) = .error .illegalCommand ∧
    decode (.command 0xA8000000) = .error .illegalCommand ∧
    decode (.command 0xF8000000) = .error .illegalCommand := by decide

theorem test_illegal_words_2 :
    decode (.command 0x08010000) = .error .illegalCommand ∧
    decode (.command 0x02000000) = .error .illegalCommand ∧
    decode (.command 0x3C000000) = .error .illegalCommand ∧
    decode (.command 0x58000008) = .error .illegalCommand := by decide

theorem test_illegal_words_3 :
    decode (.command 0x18000001) = .error .illegalCommand ∧
    decode (.command 0x98000001) = .error .illegalCommand ∧
    decode (.command 0x68000040) = .error .illegalCommand ∧
    decode (.command 0xA0000040) = .error .illegalCommand := by decide

theorem test_illegal_words_4 :
    decode (.command 0x90004000) = .error .illegalCommand ∧
    decode (.command 0x12000000) = .error .illegalCommand ∧
    decode (.command 0x010101FF) = .error .illegalCommand ∧
    decode (.command 0x62000000) = .error .illegalCommand := by decide

/-- The opcode table's numbering. -/
theorem test_decodeTableWord :
    decodeTableWord 32 0x32000000 = some (.exch .m0 .m1) ∧
    decodeTableWord 32 0x0031DF24 = some (.busPing ⟨false, 0, true, 0xDF24, false, 0, Payload.zero⟩) ∧
    decodeTableWord 32 0x70000000 = none := by decide

/-! ### Identifiers and frames -/

/-- V10, V12, V14, V15 (30_encoding.md R61 to R63). -/
theorem test_identifiers :
    packId 5 0x0B true 0x4711 = 0x0A174711 ∧ packId 3 0x05 false 0x0001 = 0x060A0001 ∧
    idPrio 0x1030DF24 = 0 ∧ idCmd 0x1030DF24 = 0x18 ∧ idResp 0x1FFFFFFF = true ∧ idHash 0x1FFFFFFF = 0xFFFF := by
  decide

/-- V21: pad bytes do not reach the port. -/
theorem test_encodeFrame : encodeFrame ⟨0, 0x04, false, 0xDF24, 6, pay8 0 0 0x40 0x07 0x01 0xF4 0xAA 0xBB⟩ =
    ⟨0x0008DF24, true, 6, pay8 0 0 0x40 0x07 0x01 0xF4 0 0⟩ := by decide

/-- V28: `dlen` 12 is taken as 8. -/
theorem test_decodeFrame_saturates : decodeFrame ⟨0x00094711, true, 12, pay8 1 2 3 4 5 6 7 8⟩ =
    ⟨0, 0x04, true, 0x4711, 8, pay8 1 2 3 4 5 6 7 8⟩ := by decide

/-- V29: `ext` is not looked at, bytes from `dlen` on are not taken. -/
theorem test_decodeFrame_pads : decodeFrame ⟨0x000A0001, false, 2, pay8 9 8 7 6 5 4 3 2⟩ =
    ⟨0, 0x05, false, 0x0001, 2, pay8 9 8 0 0 0 0 0 0⟩ := by decide

/-! ### Text -/

/-- The codes of an ASCII string. -/
def codes (s : List Char) : List Byte := s.map fun c => BitVec.ofNat 8 c.toNat

/-- V74. -/
theorem test_encodeText : encodeText ⟨3, 0x0B, false, 0x0A0B, 1, pay8 0x0C 0x99 0 0 0 0 0 0⟩ =
    [0x30, 0x41, 0x30, 0x42, 0x20, 0x20, 0x20, 0x30, 0x42, 0x20, 0x31, 0x20, 0x30, 0x43] := by decide

/-- V80, V83, V84. -/
theorem test_decodeText_some :
    decodeText (codes ['d', 'f', '2', '4', ' ', 'r', ' ', '1', '8', ' ', '0']) =
      some ⟨0, 0x18, false, 0xDF24, 0, Payload.zero⟩ ∧
    decodeText (codes ['D', 'F', '2', '4', 'x', 'R', 'y', '1', '8', 'z', '0']) =
      some ⟨0, 0x18, true, 0xDF24, 0, Payload.zero⟩ ∧
    decodeText (codes ['D', 'F', '2', '4', ' ', 'R', ' ', '1', '8', ' ', '1', ' ', 'A', 'A', ' ', 't']) =
      some ⟨0, 0x18, true, 0xDF24, 1, pay8 0xAA 0 0 0 0 0 0 0⟩ := by decide

/-- V76 to V79: the four causes. -/
theorem test_decodeText_none :
    decodeText (codes ['D', 'F', '2', '4', ' ', 'R', ' ', '1', '8']) = none ∧
    decodeText (codes ['D', 'G', '2', '4', ' ', 'R', ' ', '1', '8', ' ', '0']) = none ∧
    decodeText (codes ['D', 'F', '2', '4', ' ', 'R', ' ', '1', '8', ' ', '9']) = none ∧
    decodeText (codes ['D', 'F', '2', '4', ' ', 'R', ' ', '1', '8', ' ', '2', ' ', 'A', 'A']) = none := by decide

/-! ### One step of each instruction -/

theorem test_nop : answer .nop quiet = some ⟨true, 0, 0⟩ := by decide

/-- V30: all eight bytes become zero, the other register stays. -/
theorem test_clear :
    let s := { quiet with m0 := ⟨3, 0x04, true, 0xDF24, 6, pay8 0 0 0x40 0x07 0x01 0xF4 0xAA 0xBB⟩, m1 := speedRequest }
    (after (exec (.clear .m0) s)).m0 = ⟨0, 0, false, 0, 0, pay8 0 0 0 0 0 0 0 0⟩ ∧
    (after (exec (.clear .m0) s)).m1 = speedRequest := by decide

/-- T4: big-endian. -/
theorem test_ldf : (after (exec (.ldf .m0 18 0x4007) quiet)).m0.data = pay8 0 0 0x40 0x07 0 0 0 0 := by decide

/-- V31, V35: refused, the register stays. -/
theorem test_ldf_refused :
    (after (exec (.ldf .m0 4 9) (ready Env.start))).m0 = speedRequest ∧
    answer (.ldf .m0 4 9) quiet = some ⟨false, 5, 0⟩ ∧ answer (.ldf .m1 7 1) quiet = some ⟨false, 5, 0⟩ ∧
    (after (exec (.ldf .m0 23 0) quiet)).err = 0x10 := by decide

/-- R97: 500 is read back. -/
theorem test_rdf : answer (.rdf .m0 20) (ready Env.start) = some ⟨true, 0, 500⟩ ∧
    answer (.rdf .m0 31) (ready Env.start) = some ⟨false, 5, 0⟩ := by decide

/-- R112: stamp, frame, response. -/
theorem test_send : (after (exec (.send .m0) (ready { Env.start with tx := [true] }))).env.offers =
      [⟨⟨0x0008DF24, true, 6, pay8 0 0 0x40 0x07 0x01 0xF4 0 0⟩, true⟩] ∧
    (after (exec (.send .m0) (ready { Env.start with tx := [true] }))).m0.hash = 0xDF24 ∧
    answer (.send .m0) (ready { Env.start with tx := [true] }) = some ⟨true, 0, 0x0008DF24⟩ := by decide

/-- V51, V53: rejected, never halts. -/
theorem test_send_rejected :
    let t := after (exec (.send .m0) { ready { Env.start with tx := [false] } with cfg := 4 })
    t.env.responses = [⟨false, 1, 0x0008DF24⟩] ∧ t.err = 1 ∧ t.phase = .idle := by decide

/-- V55: `val` shows bit 28. -/
theorem test_recv :
    let s := base { Env.start with rx := [some ⟨0x1E31BEEF, true, 2, pay8 0xAA 0xBB 0xCC 0xDD 0 0 0 0⟩] }
    (after (exec (.recv .m1) s)).m1 = ⟨7, 0x18, true, 0xBEEF, 2, pay8 0xAA 0xBB 0 0 0 0 0 0⟩ ∧
    answer (.recv .m1) s = some ⟨true, 0, 0x1E31BEEF⟩ := by decide

/-- V54. -/
theorem test_recv_none : answer (.recv .m0) (ready { Env.start with rx := [none] }) = some ⟨false, 0, 0⟩ ∧
    (after (exec (.recv .m0) (ready { Env.start with rx := [none] }))).m0 = speedRequest := by decide

/-- R136: the first micro-step. -/
theorem test_exch :
    let t := after (exec (.exch .m0 .m1) (ready { Env.start with tx := [true], clk := [0], now := 5000 }))
    t.phase = .exPoll ∧ t.t0 = 5000 ∧ t.xcmd = 0x04 ∧ t.xdst = .m1 ∧ t.m0.hash = 0xDF24 ∧ t.env.responses = [] := by
  decide

/-- P5 variant a. -/
theorem test_exch_halts :
    let t := after (exec (.exch .m0 .m1) { ready { Env.start with tx := [false], clk := [0] } with cfg := 4 })
    t.outputs = ⟨false, true, true, true, false, false, false⟩ ∧ t.err = 1 ∧ t.xerr = 1 ∧ t.env.responses = [] := by
  decide

theorem test_negotiate : (after (exec .negotiate quiet)).phase = .ngDraw := by decide

/-- V90: no probing with a pre-assigned hash. -/
theorem test_activate : answer .activate { quiet with hash := 0x4711 } = some ⟨true, 0, 0x4711⟩ ∧
    (after (exec .activate { quiet with hash := 0x4711 })).status = 3 := by decide

/-- V45. -/
theorem test_activate_negotiates : (after (exec .activate quiet)).phase = .ngDraw ∧
    (after (exec .activate quiet)).active = true := by decide

theorem test_sethash : (after (exec (.sethash 0xDF24) quiet)).hash = 0xDF24 := by decide

/-- P3, word 4. -/
theorem test_sethash_refused :
    let t := after (exec (.sethash 0x1111) { quiet with active := true, hash := 0xDF24 })
    t.hash = 0xDF24 ∧ t.err = 0x20 ∧ t.env.responses = [⟨false, 6, 0⟩] := by decide

theorem test_settmo : (after (exec (.settmo 0xFFFF) quiet)).timeout = 0xFFFF := by decide

theorem test_setcfg : (after (exec (.setcfg 7) quiet)).outputs = ⟨false, false, false, false, true, true, true⟩ := by
  decide

/-- V90, V91. -/
theorem test_rdsr : answer (.rdsr 1) quiet = some ⟨true, 0, 1000⟩ ∧ answer (.rdsr 3) quiet = some ⟨true, 0, 0⟩ ∧
    answer (.rdsr 6) quiet = some ⟨false, 5, 0⟩ := by decide

theorem test_clrerr : (after (exec (.clrerr 0x20) { quiet with err := 0x21 })).err = 0x01 := by decide

/-- T3. -/
theorem test_txenc :
    let t := after (exec (.txenc .m0) { quiet with m0 := ⟨0, 0x18, true, 0xDF24, 0, Payload.zero⟩ })
    t.text = [0x44, 0x46, 0x32, 0x34, 0x20, 0x52, 0x20, 0x31, 0x38, 0x20, 0x30] ∧ t.txtlen = 11 ∧
    t.env.responses = [⟨true, 0, 11⟩] := by decide

/-- A buffer that begins with the string of T3. -/
def pingText : TextBuf := storeText (codes ['D', 'F', '2', '4', ' ', 'R', ' ', '1', '8', ' ', '0']) TextBuf.zero

/-- V86: `prio` becomes 0. -/
theorem test_txdec : (after (exec (.txdec .m1)
    { quiet with txt := pingText, txtlen := 11, m1 := ⟨5, 0, false, 0, 0, Payload.zero⟩ })).m1 =
    ⟨0, 0x18, true, 0xDF24, 0, Payload.zero⟩ := by decide

/-- V86, cause (i): cleared and refused. -/
theorem test_txdec_fails :
    let t := after (exec (.txdec .m0) { ready Env.start with txt := pingText, txtlen := 10 })
    t.m0 = Message.cleared ∧ t.err = 4 ∧ t.env.responses = [⟨false, 3, 0⟩] := by decide

theorem test_ldt : (after (exec (.ldt 34 0xFF) quiet)).txt[34] = 0xFF ∧
    answer (.ldt 35 0) quiet = some ⟨false, 5, 0⟩ := by decide

theorem test_rdt : answer (.rdt 5) { quiet with txt := pingText } = some ⟨true, 0, 0x52⟩ ∧
    answer (.rdt 35) quiet = some ⟨false, 5, 0⟩ := by decide

theorem test_settl : (after (exec (.settl 35) quiet)).txtlen = 35 ∧ answer (.settl 36) quiet = some ⟨false, 5, 0⟩ := by
  decide

/-- A listed frame waits behind what the transport already holds (log 1). -/
theorem test_busPing : (after (exec (.busPing (carried false 0 true 0xDF24)) (base { Env.start with rx := [none] }))).env.rx =
    [none, some (frameOf 0x0031DF24)] := by decide

/-! ### One micro-step of each phase -/

/-- R136: a match is stored and answered. -/
theorem test_exPoll_match :
    let t := after (step { ready { Env.start with rx := [some speedFrame], clk := [1] } with phase := .exPoll, xcmd := 0x04, xdst := .m1 })
    t.m1 = ⟨0, 0x04, true, 0x4711, 6, pay8 0 0 0x40 0x07 0x01 0xF4 0 0⟩ ∧ t.scr = t.m1 ∧
    t.env.responses = [⟨true, 0, 0x00094711⟩] := by decide

/-- V62, V63, V66: the budget, the lower code first, the wrap. -/
theorem test_exPoll_timeout :
    let s := { ready { Env.start with rx := [some speedFrame], clk := [0x200], now := 0xFFFFFF00 } with
      phase := .exPoll, t0 := 0xFFFFFF00, timeout := 0x200, xcmd := 0x04, xerr := 1, err := 1 }
    (after (step s)).env.responses = [⟨false, 1, 0⟩] ∧ (after (step s)).err = 3 ∧
    (after (step s)).env.rx = [some speedFrame] := by decide

/-- V40, V41, V42 and R153, with the masks those vectors assume. -/
theorem test_candidates : candidate 0xFF7F 0x0300 0x0000 = 0x0300 ∧ candidate 0xFF7F 0x0300 0xFFFF = 0xFF7F ∧
    candidate 0xFF7F 0x0300 0x1234 = 0x1334 ∧ candidate 0xFF7F 0x0300 0xDCA4 = 0xDF24 := by decide

/-- V43: a rejected ping leaves a trace in `ERR` only, whatever the policy. -/
theorem test_ngSend :
    let t := after (step { base { Env.start with tx := [false], clk := [0], now := 100 } with
      phase := .ngSend, hash := 0xDF24, cfg := 4 })
    t.env.offers = [⟨⟨0x0030DF24, true, 0, Payload.zero⟩, false⟩] ∧ t.err = 1 ∧ t.t0 = 100 ∧ t.phase = .ngSettle := by
  decide

/-- V40: 599 is too early, 600 is not. -/
theorem test_settled : settled 500 599 100 = false ∧ settled 500 600 100 = true ∧ settled 0 100 100 = true := by decide

/-- V44: a stale frame contests, bit 28 and the other fields play no part. -/
theorem test_ngDrain : (after (step { base { Env.start with rx := [some (frameOf 0x1E00DF24)] } with
    phase := .ngDrain, hash := 0xDF24 })).contested = true := by decide

/-- V42: the restart is decided at `none`. -/
theorem test_ngDrain_decides :
    (after (step { base { Env.start with rx := [none] } with phase := .ngDrain, contested := true })).phase = .ngDraw ∧
    (after (step { base { Env.start with rx := [none] } with phase := .ngDrain, hash := 0xDF24 })).env.responses =
      [⟨true, 0, 0xDF24⟩] := by decide

/-- V100: an illegal word at the port. -/
theorem test_illegal_word_is_answered :
    (after (step (base { Env.start with port := [0x70000000] }))).env.responses = [⟨false, 4, 0⟩] ∧
    (after (step (base { Env.start with port := [0x70000000] }))).err = 8 := by decide

/-- A reset turn leaves `HALTED` and keeps the transport's queue (70_reset_and_hazards.md R250, R251). -/
theorem test_reset_turn :
    let s := { ready { Env.start with turns := [.reset], rx := [some speedFrame] } with phase := .halted }
    (after (step s)).phase = .idle ∧ (after (step s)).hash = 0 ∧ (after (step s)).env.rx = [some speedFrame] := by decide

/-- The host presents and takes, the transport and the random source settle, the clock advances (00_scope.md R5). -/
theorem test_agents :
    let t (m : AgentMove) := (after (step (base { Env.start with
      turns := [.outside m], port := [1], pending := [⟨true, 0, 7⟩, ⟨false, 4, 0⟩], now := 0xFFFFFFFF }))).env
    (t (.hostPresents 2)).port = [1, 2] ∧ (t .hostTakes).pending = [⟨false, 4, 0⟩] ∧
    (t (.transportWillAnswer false)).tx = [false] ∧ (t .transportWillBeEmpty).rx = [none] ∧
    (t (.clockAdvances 2)).now = 1 ∧ (t (.randomSettles 0x1234)).rnd = [0x1234] := by decide

/-- Reset leaves no response pending (70_reset_and_hazards.md R250). -/
theorem test_reset_pending :
    (after (step (base { Env.start with turns := [.reset], pending := [⟨true, 0, 7⟩], port := [1] }))).env =
      { Env.start with port := [1] } := by decide

/-- The placed word is what the very next step runs. -/
theorem test_withFetchWord : (after (step (State.reset.withFetchWord 32 0x48004711))).hash = 0x4711 ∧
    (after (step (State.reset.withFetchWord 32 0x0031DF24))).env.rx = [some ⟨0x0031DF24, false, 0, Payload.zero⟩] := by
  decide

/-! ### The surrounding software -/

/-- V134, V136, V143, V145. -/
theorem test_command_words :
    commandWords (PseudoOp.setDir 0x4007 2).exchange =
      [0x08000000, 0x10100005, 0x11204007, 0x10C00002, 0x10400005, 0x32000000] ∧
    commandWords (PseudoOp.setSpeed 0x4007 500).exchange =
      [0x08000000, 0x10100004, 0x11204007, 0x114001F4, 0x10400006, 0x32000000] ∧
    commandWords (PseudoOp.rdCfg 0x4007 0x0102).exchange =
      [0x08000000, 0x10100007, 0x11204007, 0x11400102, 0x10E00001, 0x10400007, 0x32000000] ∧
    commandWords PseudoOp.ping.exchange = [0x08000000, 0x10100018, 0x32000000] := by decide

/-- P6: the complement of forward is reverse; a failed query ends the toggle. -/
theorem test_toggle : toggleDirNext 0x4007 (some 1) = some (.setDir 0x4007 2) ∧ toggleDirNext 0x4007 none = none ∧
    toggleFuncNext 0x4007 3 (some 0) = some (.setFunc 0x4007 3 1) := by decide

/-- The answer of a decoder whose `data[4]` and `data[5]` are `d4` and `d5`. -/
def reply (ok : Bool) (d4 d5 : Byte) : Response × Message :=
  (⟨ok, 0, 0⟩, ⟨0, 0, true, 0x4711, 6, pay8 0 0 0x40 0x07 d4 d5 0 0⟩)

/-- P6 and R211: query, complement, result; a failed query sends nothing further. -/
theorem test_toggle_runs :
    let h := HostOp.toggleDir 0x4007
    h.next [] = some ⟨0, .getDir 0x4007⟩ ∧
    h.next (h.outcomes [reply true 1 0]) = some ⟨0, .setDir 0x4007 2⟩ ∧ h.result [reply true 1 0] = .unfinished ∧
    h.result [reply true 1 0, reply true 2 0] = .done [1, 2] ∧
    h.next (h.outcomes [reply false 1 0]) = none ∧ h.result [reply false 1 0] = .failed ∧
    (HostOp.toggleFunc 0x4007 3).next [some [0]] = some ⟨0, .setFunc 0x4007 3 1⟩ := by decide

/-- R210, R212: on, hold, off; one failed exchange fails the whole. -/
theorem test_turnout :
    let h := HostOp.turnout 0x4007 1 (some 200)
    h.next [] = some ⟨0, .setAcc 0x4007 1 Config.turnoutPower⟩ ∧
    h.next (h.outcomes [reply true 1 9]) = some ⟨200, .setAcc 0x4007 1 0⟩ ∧
    h.result [reply true 1 9, reply true 1 0] = .done [1, 9, 1, 0] ∧
    h.result [reply true 1 9, reply false 1 0] = .failed :=
  ⟨rfl, rfl, rfl, rfl⟩

/-- R79. -/
theorem test_asm : asm (.ldf .m0 18 0x4007) = some ["LDF", "M0", "W2", "16391"] ∧
    asm (.ldt 5 0x52) = some ["LDT", "5", "'R'"] := by decide

/-! ### Witnesses: values that meet the hypotheses of each statement that has any, clause by clause, at boundaries -/

theorem witness_DecodedWireIsItsEncoding :
    decode (.command 0x11204007) = .ok (.ldf .m0 18 0x4007) ∧
    decode (.frame (frameOf 0x0031DF24)) = .ok (.busPing (carried false 0 true 0xDF24)) := by decide

theorem witness_UnpackRecoversThePackedFields : (0x0FFFFFFF : BitVec 29).getLsbD 28 = false := by decide

/-- A step that makes an offer. -/
theorem witness_Bit28IsSentClearAndIgnored :
    ∃ t o, step (ready { Env.start with port := [0x20000000], tx := [true] }) = .next t ∧ t.env.offers = o :: [] :=
  ⟨_, _, rfl, rfl⟩

theorem witness_FrameRoundTrips :
    (⟨7, 0xFF, true, 0xFFFF, 8, pay8 1 2 3 4 5 6 7 8⟩ : Message).len ≤ 8 ∧ Message.cleared.len ≤ 8 ∧
    speedFrame.id.getLsbD 28 = false ∧ speedFrame.ext = true ∧ speedFrame.dlen ≤ 8 ∧
    (∀ k : Fin 8, speedFrame.dlen.toNat ≤ k.val → speedFrame.pay[k] = 0) := by decide

/-- Two messages that differ in a pad byte alone. -/
theorem witness_PadBytesNeverShow :
    let m := speedRequest
    let n : Message := { speedRequest with data := pay8 0 0 0x40 0x07 0x01 0xF4 0xAA 0xBB }
    Message.SemEq m n ∧ m ≠ n := by
  refine ⟨⟨rfl, rfl, rfl, rfl, rfl, ?_⟩, by decide⟩
  decide

theorem witness_TextFormByPosition : Message.cleared.len ≤ 8 ∧
    (⟨7, 0xFF, true, 0xFFFF, 8, pay8 1 2 3 4 5 6 7 8⟩ : Message).len ≤ 8 := by decide

theorem witness_TextRoundTrips : speedRequest.len ≤ 8 ∧
    decodeText (codes ['d', 'f', '2', '4', ' ', 'r', ' ', '1', '8', ' ', '0']) =
      some ⟨0, 0x18, false, 0xDF24, 0, Payload.zero⟩ := by decide

theorem witness_DrawsTakeTheNextAnswer :
    let e : Env := { Env.start with tx := [true], rx := [none], clk := [5], rnd := [7] }
    (base e).env.tx = true :: [] ∧ (base e).env.rx = none :: [] ∧ (base e).env.clk = 5 :: [] ∧
    (base e).env.rnd = 7 :: [] := by decide

/-- The selectors at the two ends of every range of R71. -/
theorem witness_LdfLoadsTheSelectedField :
    (8 : BitVec 5).toNat = 8 + (0 : Fin 8).val ∧ (15 : BitVec 5).toNat = 8 + (7 : Fin 8).val ∧
    (16 : BitVec 5).toNat = 16 + 0 ∧ (22 : BitVec 5).toNat = 16 + 6 ∧
    ((5 : BitVec 5) ≤ 5 ∧ (5 : BitVec 5) ≤ 7) ∧ ((5 : BitVec 5) ≤ 7 ∧ (7 : BitVec 5) ≤ 7) ∧
    (23 : BitVec 5) ≤ 23 ∧ (23 : BitVec 5) ≤ 31 := by decide

/-- The immediates at both sides of each maximum of R94. -/
theorem witness_LdfLoadsTheSelectedField_maxima :
    (7 : BitVec 16) ≤ 7 ∧ ¬ (8 : BitVec 16) ≤ 7 ∧ (255 : BitVec 16) ≤ 255 ∧ ¬ (256 : BitVec 16) ≤ 255 ∧
    (1 : BitVec 16) ≤ 1 ∧ ¬ (2 : BitVec 16) ≤ 1 ∧ (8 : BitVec 16) ≤ 8 ∧ ¬ (9 : BitVec 16) ≤ 8 := by decide

theorem witness_RdfAnswersTheSelectedField :
    (8 : BitVec 5).toNat = 8 + (0 : Fin 8).val ∧ (15 : BitVec 5).toNat = 8 + (7 : Fin 8).val ∧
    (16 : BitVec 5).toNat = 16 + 0 ∧ (22 : BitVec 5).toNat = 16 + 6 ∧ (5 : BitVec 5) ≤ 7 ∧ (23 : BitVec 5) ≤ 31 := by
  decide

theorem witness_RdfReadsWhatLdfLoaded :
    fieldOf 4 = some .len ∧ (8 : BitVec 16).toNat ≤ Field.len.max ∧
    fieldOf 22 = some (.pair 6) ∧ (0xFFFF : BitVec 16).toNat ≤ (Field.pair 6).max := by decide

theorem witness_SendStampsOffersAndAnswers :
    (ready { Env.start with tx := [true] }).txAnswer = true ∧
    (ready { Env.start with tx := [false] }).txAnswer = false := by decide

theorem witness_RecvPollsOnce :
    (base { Env.start with rx := [none] }).rxAnswer = none ∧
    (base { Env.start with rx := [some speedFrame] }).rxAnswer = some speedFrame := by decide

/-- The state `EXCH` has captured in when it offers its frame, as the statement writes it. -/
def captured (a b : MReg) (s : State) : State :=
  { s.clockRead with t0 := s.clock, xcmd := (s.msg a).cmd, xdst := b, xerr := 0 }.setMsg a
    { s.msg a with hash := s.hash }

theorem witness_ExchSendsAndStartsPolling :
    (captured .m0 .m1 (ready { Env.start with tx := [true], clk := [0] })).txAnswer = true ∧
    (captured .m0 .m0 (ready { Env.start with tx := [false], clk := [0] })).txAnswer = false ∧
    (ready Env.start).cfg.getLsbD 2 = false ∧ ({ ready Env.start with cfg := 4 } : State).cfg.getLsbD 2 = true := by
  decide

/-- An exchange in progress since 5000, the clock standing there too. -/
def polling (env : Env) : State :=
  { ready { env with now := 5000 } with phase := .exPoll, t0 := 5000, xcmd := 0x04, xdst := .m1 }

/-- It is the engine's turn, by an empty and by a scheduled list. -/
theorem witness_EngineMoves :
    quiet.EngineMoves quiet ∧
    (base { Env.start with turns := [.engine] }).EngineMoves ((base { Env.start with turns := [.engine] }).setTurns []) :=
  ⟨.inl ⟨rfl, rfl⟩, .inr ⟨[], rfl, rfl⟩⟩

/-- The budget used up to the millisecond. -/
theorem witness_ExPollMicroStep_expired :
    let s := polling { Env.start with clk := [1000] }
    s.EngineMoves s ∧ s.phase = .exPoll ∧ s.timeout.toNat ≤ (s.clock - s.t0).toNat :=
  ⟨.inl ⟨rfl, rfl⟩, rfl, by decide⟩

/-- One millisecond left, and no frame. -/
theorem witness_ExPollMicroStep_none :
    let s := polling { Env.start with clk := [999], rx := [none] }
    s.EngineMoves s ∧ s.phase = .exPoll ∧ ¬ s.timeout.toNat ≤ (s.clock - s.t0).toNat ∧ s.clockRead.rxAnswer = none :=
  ⟨.inl ⟨rfl, rfl⟩, rfl, by decide, by decide⟩

/-- One millisecond left, and a frame: one that matches, one that is no response. -/
theorem witness_ExPollMicroStep_frame :
    let s := polling { Env.start with clk := [999], rx := [some speedFrame] }
    ¬ s.timeout.toNat ≤ (s.clock - s.t0).toNat ∧ s.clockRead.rxAnswer = some speedFrame ∧
    ((decodeFrame speedFrame).cmd = s.xcmd ∧ (decodeFrame speedFrame).resp = true) ∧
    ¬ ((decodeFrame (frameOf 0x0008DF24)).cmd = s.xcmd ∧ (decodeFrame (frameOf 0x0008DF24)).resp = true) := by decide

/-- The traffic of R136: nothing, another code, the own request, the match. -/
theorem witness_ExchangeEndsWithTheFirstMatch :
    let rs : List (Option Frame) := [none, some (frameOf 0x000B4711), some (frameOf 0x0008DF24)]
    let s := polling { Env.start with clk := [0, 3, 0, 996], rx := rs ++ some speedFrame :: [] }
    s.phase = .exPoll ∧ s.env.turns = [] ∧ s.env.rx = rs ++ some speedFrame :: [] ∧ s.env.clk.length = rs.length + 1 ∧
    (∀ j : Fin 4, (s.env.now + (s.env.clk.take (j.val + 1)).sum - s.t0).toNat < s.timeout.toNat) ∧
    (∀ r ∈ rs, ∀ g ∈ r, ¬ ((decodeFrame g).cmd = s.xcmd ∧ (decodeFrame g).resp = true)) ∧
    (decodeFrame speedFrame).cmd = s.xcmd ∧ (decodeFrame speedFrame).resp = true := by decide

theorem witness_NgDrawAdoptsTheCandidate :
    let s := { quiet with phase := .ngDraw }
    s.EngineMoves s ∧ s.phase = .ngDraw := ⟨.inl ⟨rfl, rfl⟩, rfl⟩

theorem witness_NgSendOffersThePing :
    let s := { quiet with phase := .ngSend, hash := 0xDF24 }
    s.EngineMoves s ∧ s.phase = .ngSend := ⟨.inl ⟨rfl, rfl⟩, rfl⟩

theorem witness_NgSettleWaits :
    let s := { quiet with phase := .ngSettle }
    s.EngineMoves s ∧ s.phase = .ngSettle := ⟨.inl ⟨rfl, rfl⟩, rfl⟩

theorem witness_NgDrainMicroStep :
    let s (r : Option Frame) (c : Bool) :=
      { base { Env.start with rx := [r] } with phase := .ngDrain, hash := 0xDF24, contested := c }
    (∀ r c, (s r c).EngineMoves (s r c) ∧ (s r c).phase = .ngDrain) ∧
    (s (some speedFrame) false).rxAnswer = some speedFrame ∧ (s none true).rxAnswer = none ∧
    (s none true).contested = true ∧ (s none false).contested = false :=
  ⟨fun _ _ => ⟨.inl ⟨rfl, rfl⟩, rfl⟩, rfl, rfl, rfl, rfl⟩

/-- An empty drain, and one whose second frame carries the candidate. -/
theorem witness_DrainPassDecides :
    let s (fs : List Frame) :=
      { base { Env.start with rx := fs.map some ++ none :: [] } with phase := .ngDrain, hash := 0xDF24 }
    let fs : List Frame := [frameOf 0x00004711, frameOf 0x1E00DF24]
    (∀ fs, (s fs).phase = .ngDrain ∧ (s fs).env.turns = [] ∧ (s fs).contested = false ∧
      (s fs).env.rx = fs.map some ++ none :: []) ∧
    (∀ f ∈ ([] : List Frame), (decodeFrame f).hash ≠ (s []).hash) ∧
    (∃ f ∈ fs, (decodeFrame f).hash = (s fs).hash) :=
  ⟨fun _ => ⟨rfl, rfl, rfl, rfl⟩, by decide, by decide⟩

theorem witness_ArbiterLeavesTheHostsRegisters :
    let s := { ready { Env.start with rnd := [0x1234] } with phase := .ngDraw }
    s.EngineMoves s ∧ s.phase.Arbiter ∧ ∃ t, step s = .next t :=
  ⟨.inl ⟨rfl, rfl⟩, .inl rfl, _, rfl⟩

theorem witness_TxencWritesTheTextForm :
    (quiet.msg .m0).len ≤ 8 ∧
    (State.msg { quiet with m1 := ⟨0, 0, false, 0, 8, Payload.zero⟩ } .m1).len ≤ 8 := by decide

theorem witness_TxdecWritesOrClears :
    decodeText (pingText.toList.take (11 : BitVec 6).toNat) = some ⟨0, 0x18, true, 0xDF24, 0, Payload.zero⟩ ∧
    decodeText (quiet.txt.toList.take quiet.txtlen.toNat) = none := by decide

theorem witness_TextBufferIsMovedByCharacter :
    (0 : BitVec 6).toNat < 35 ∧ (34 : BitVec 6).toNat < 35 ∧ 34 < (35 : BitVec 6).toNat ∧ 34 < (63 : BitVec 6).toNat ∧
    (35 : BitVec 6).toNat ≤ 35 ∧ 35 < (36 : BitVec 6).toNat := by decide

theorem witness_ActivateNegotiatesOnlyWithoutHash :
    quiet.hash = 0 ∧ (ready Env.start).hash ≠ 0 := by decide

theorem witness_SethashOnlyDuringConstruction :
    quiet.active = false ∧ ({ quiet with active := true } : State).active = true := by decide

theorem witness_RdsrAnswersTheRegister : (5 : BitVec 5) < 6 ∧ (5 : BitVec 5) < 31 := by decide

theorem witness_BusFrameReachesTheTransport :
    (Instr.busSystem (argsOf 8), (0x00 : Byte)) ∈ busRows (argsOf 8) ∧
    (Instr.busPing (argsOf 9), (0x18 : Byte)) ∈ busRows (argsOf 9) := by decide

theorem witness_RecvStoresTheArrivedBusFrame :
    (Instr.busSpeed (argsOf 15), (0x04 : Byte)) ∈ busRows (argsOf 15) ∧ quiet.env.rx = [] := by decide

theorem witness_StepRunsTheDecodedInstruction :
    let s := base { Env.start with port := [0x11204007] }
    let u := base { Env.start with turns := [.bus (frameOf 0x0031DF24)] }
    s.EngineMoves s ∧ s.phase = .idle ∧ s.env.port = 0x11204007 :: [] ∧
    decode (.command 0x11204007) = .ok (.ldf .m0 18 0x4007) ∧
    u.env.turns = .bus (frameOf 0x0031DF24) :: [] ∧
    decode (.frame (frameOf 0x0031DF24)) = .ok (.busPing (carried false 0 true 0xDF24)) :=
  ⟨.inl ⟨rfl, rfl⟩, rfl, rfl, by decide, rfl, by decide⟩

/-- An empty port, and a frame of code 0x01, which is in no row. -/
theorem witness_StepRunsTheDecodedInstruction_waits :
    let u := base { Env.start with turns := [.bus (frameOf 0x00024711)] }
    quiet.EngineMoves quiet ∧ quiet.phase = .idle ∧ quiet.env.port = [] ∧
    u.env.turns = .bus (frameOf 0x00024711) :: [] ∧
    decode (.frame (frameOf 0x00024711)) = .error .unlistedCode :=
  ⟨.inl ⟨rfl, rfl⟩, rfl, rfl, rfl, by decide⟩

/-- The first and the last reserved operation, and a listed one with a reserved bit set. -/
theorem witness_UnmatchedWordsAreIllegal :
    (∀ r ∈ cwRows, (0x08010000 : CommandWord) &&& r.mask ≠ r.pattern) ∧
    (0x70000000 : CommandWord).extractLsb' 27 5 = 0x0E ∧ (0x78000000 : CommandWord).extractLsb' 27 5 = 0x0F ∧
    (0x15 : BitVec 5) ≤ (0xA8000000 : CommandWord).extractLsb' 27 5 ∧
    (0x15 : BitVec 5) ≤ (0xFFFFFFFF : CommandWord).extractLsb' 27 5 := by
  refine ⟨?_, by decide, by decide, by decide, by decide⟩
  simp [cwRows]

theorem witness_BusyBlockTakesNoWord :
    let s := polling { Env.start with clk := [1], rx := [none], port := [0x00000000] }
    s.phase ≠ .idle ∧ (∀ w ts, s.env.turns ≠ .outside (.hostPresents w) :: ts) ∧ ∃ t, step s = .next t :=
  ⟨by decide, fun _ _ h => (by cases h), _, rfl⟩

theorem witness_BusyBlockTakesNoWord_presented :
    let s := polling { Env.start with turns := [.outside (.hostPresents 7)] }
    s.phase ≠ .idle ∧ s.env.turns = .outside (.hostPresents 7) :: [] ∧ ∃ t, step s = .next t :=
  ⟨by decide, rfl, _, rfl⟩

theorem witness_StepRespondsAndOffersAtMostOnce :
    ∃ t, step (ready { Env.start with port := [0x20000000], tx := [true] }) = .next t := ⟨_, rfl⟩

/-- The three ways: a reset, a `SETHASH` before activation, a draw. -/
theorem witness_HashChangesOnlyInThreeWays :
    (∃ t, step (ready { Env.start with turns := [.reset] }) = .next t ∧ t.hash ≠ 0xDF24) ∧
    (∃ t, step (base { Env.start with port := [0x48004711] }) = .next t ∧ t.hash ≠ 0) ∧
    (∃ t, step { base { Env.start with rnd := [0x1234] } with phase := .ngDraw } = .next t ∧ t.hash ≠ 0) := by
  refine ⟨⟨_, rfl, by decide⟩, ⟨_, rfl, by decide⟩, ⟨_, rfl, ?_⟩⟩
  intro h
  exact hashOr_ne_zero (BitVec.or_eq_zero_iff.mp h).2

theorem witness_IdentificationIsOneWay :
    let s := { ready { Env.start with port := [0x48000000] } with active := true }
    s.active = true ∧ s.hash ≠ 0 ∧ (∀ ts, s.env.turns ≠ .reset :: ts) ∧ ∃ t, step s = .next t :=
  ⟨rfl, by decide, fun _ h => (by cases h), _, rfl⟩

theorem witness_HaltedIsEnteredOnlyByExch :
    let s := { ready { Env.start with port := [0x32000000], tx := [false], clk := [0] } with cfg := 4 }
    s.phase ≠ .halted ∧ ∃ t, step s = .next t ∧ t.phase = .halted := ⟨by decide, _, rfl, by decide⟩

theorem witness_HaltedChangesNothingUntilReset :
    let s (ts : List Turn) := { base { Env.start with turns := ts } with phase := .halted }
    (∀ ts, (s ts).phase = .halted) ∧ (s []).env.turns = [] ∧ (s [.reset]).env.turns = .reset :: [] ∧
    (s [.engine]).env.turns = .engine :: [] ∧ (s [.bus speedFrame]).env.turns = .bus speedFrame :: [] ∧
    (s [.outside .hostTakes]).env.turns = .outside .hostTakes :: [] :=
  ⟨fun _ => rfl, rfl, rfl, rfl, rfl, rfl⟩

theorem witness_AgentsOutsideMoveTheirOwnPart :
    let s (x : Turn) := base { Env.start with turns := [x] }
    (∀ m, (s (.outside m)).env.turns = .outside m :: []) ∧ ∀ f, (s (.bus f)).env.turns = .bus f :: [] :=
  ⟨fun _ => rfl, fun _ => rfl⟩

theorem witness_ResetTurnAbandonsTheOperation :
    (polling { Env.start with turns := [.reset] }).env.turns = .reset :: [] := rfl

/-- A state of the invariant with every length at its bound, in the middle of an exchange. -/
theorem witness_EveryStepKeepsTheInvariant :
    let s := { polling { Env.start with clk := [1], rx := [some speedFrame] } with
      m1 := ⟨7, 0xFF, true, 0xFFFF, 8, pay8 1 2 3 4 5 6 7 8⟩, txtlen := 35, xerr := 1, err := 1 }
    s.Inv ∧ ∃ t, step s = .next t := by
  refine ⟨⟨by decide, by decide, by decide, by decide, by decide, fun _ => .inl (by decide), ?_, ?_,
    fun _ => .inr (by decide), fun h => (by cases h)⟩, _, rfl⟩
  · rintro (h | h | h) <;> cases h
  · rintro (h | h | h | h) <;> cases h

end Sys2Proof.Tests
end

section
/-!
PROOFS. The views of the block's state (`STATUS`, the level outputs and `cmd_ready`) read bit by bit, and the values
after reset (10_state.md R19, R30, R32; 30_encoding.md R72).
-/

namespace Sys2Proof.Machine

/-! ### The view `STATUS` -/

@[simp] theorem State.ident_iff (s : State) : s.ident = true ↔ s.hash ≠ 0 := bne_iff_ne

theorem State.status_getLsbD_zero (s : State) : s.status.getLsbD 0 = s.ident :=
  BitVec.getLsbD_append.trans (by simp)

theorem State.status_getLsbD_one (s : State) : s.status.getLsbD 1 = s.active :=
  BitVec.getLsbD_append.trans (by simp)

/-- `STATUS` has no bit beside `IDENT` and `ACTIVE`. -/
theorem State.status_eq_zero_iff (s : State) : s.status = 0 ↔ s.hash = 0 ∧ s.active = false := by
  have status_zero : s.status = 0 ↔ s.ident = false ∧ s.active = false := by
    cases hi : s.ident <;> cases ha : s.active <;> simp [State.status, hi, ha]
  rw [status_zero, State.ident, bne_eq_false_iff_eq]

/-! ### The level outputs and `cmd_ready` -/

@[simp] theorem State.outputs_busyO_iff (s : State) :
    s.outputs.busyO = true ↔ s.phase ≠ .idle ∧ s.phase ≠ .halted := by
  simp [State.outputs]

@[simp] theorem State.outputs_haltedO_iff (s : State) : s.outputs.haltedO = true ↔ s.phase = .halted :=
  beq_iff_eq

@[simp] theorem State.outputs_estopReqO_iff (s : State) : s.outputs.estopReqO = true ↔ s.phase = .halted :=
  beq_iff_eq

@[simp] theorem State.outputs_identO (s : State) : s.outputs.identO = s.ident := rfl
@[simp] theorem State.outputs_debugO (s : State) : s.outputs.debugO = s.cfg.getLsbD 0 := rfl
@[simp] theorem State.outputs_loopbackO (s : State) : s.outputs.loopbackO = s.cfg.getLsbD 1 := rfl

@[simp] theorem State.outputs_cmdReady_iff (s : State) : s.outputs.cmdReady = true ↔ s.phase = .idle :=
  beq_iff_eq

/-- An idle block takes a word and requests nothing; only `HASH` and `CFG` show at its outputs. -/
theorem State.outputs_of_idle (s : State) (h : s.phase = .idle) :
    s.outputs = ⟨false, false, false, s.ident, s.cfg.getLsbD 0, s.cfg.getLsbD 1, true⟩ := by
  simp [State.outputs, h, State.cfgDebug, State.cfgLoopback]

/-- Settles O44, output by output from the rules above. -/
theorem statusAndOutputsAreViews : Obligations.StatusAndOutputsAreViews := by
  intro s
  have ident_bit : s.status.getLsbD 0 = true ↔ s.hash ≠ 0 := by
    rw [s.status_getLsbD_zero, s.ident_iff]
  have identO_is_ident_bit : s.outputs.identO = s.status.getLsbD 0 := by
    rw [s.outputs_identO, s.status_getLsbD_zero]
  exact ⟨ident_bit, s.status_getLsbD_one, s.outputs_busyO_iff, s.outputs_haltedO_iff, s.outputs_estopReqO_iff,
    identO_is_ident_bit, s.outputs_debugO, s.outputs_loopbackO, s.outputs_cmdReady_iff⟩

/-! ### After reset -/

theorem State.reset_status : State.reset.status = 0 := State.reset.status_eq_zero_iff.mpr ⟨rfl, rfl⟩

/-- Every level output is low after reset, and the block takes a word. -/
theorem State.reset_outputs : State.reset.outputs = ⟨false, false, false, false, false, false, true⟩ :=
  State.reset.outputs_of_idle rfl

/-- Settles O56: each register stands in `State.reset` itself; the views follow from `HASH`, `ACTIVE`, `CFG` and
`PHASE`. -/
theorem resetValues : Obligations.ResetValues :=
  ⟨rfl, rfl, rfl, rfl, rfl, rfl, rfl, rfl, rfl, rfl, rfl, rfl, rfl, rfl, rfl, rfl,
    State.reset_status, State.reset_outputs⟩

end Sys2Proof.Machine
end

section
/-!
PROOFS. The identifier: packing and unpacking are inverse to each other, and bit 28 is sent clear and ignored in what
is received (30_encoding.md R61 to R63).
-/

namespace Sys2Proof

/-! ### The identifier as a string of its fields -/

/-- The pattern `0 ppp cccccccc r hhhhhhhhhhhhhhhh` of R61. -/
theorem packId_eq_append (p : BitVec 3) (c : BitVec 8) (r : Bool) (h : BitVec 16) :
    packId p c r h = 0#1 ++ p ++ c ++ BitVec.ofBool r ++ h := by
  rw [packId_eq_with, packIdWith_eq_append]
  rfl

theorem toNat_packId_lt (p : BitVec 3) (c : BitVec 8) (r : Bool) (h : BitVec 16) :
    (packId p c r h).toNat < 2 ^ 28 := by
  have hp := p.isLt
  have hc := c.isLt
  have hr := r.toNat_le
  have hh := h.isLt
  rw [toNat_packId]
  omega

/-- Settles O5: as a string of its fields the identifier has the number `toNat_packId` gives. -/
theorem identifierPacksAsASum : Obligations.IdentifierPacksAsASum := fun p c r h =>
  ⟨rfl, toNat_packId p c r h, toNat_packId_lt p c r h, packId_eq_append p c r h⟩

/-! ### Unpacking what was packed, and packing what was unpacked -/

@[simp] theorem idPrio_packId (p : BitVec 3) (c : BitVec 8) (r : Bool) (h : BitVec 16) :
    idPrio (packId p c r h) = p := by rw [packId_eq_with, idPrio_packIdWith]

@[simp] theorem idCmd_packId (p : BitVec 3) (c : BitVec 8) (r : Bool) (h : BitVec 16) :
    idCmd (packId p c r h) = c := by rw [packId_eq_with, idCmd_packIdWith]

@[simp] theorem idResp_packId (p : BitVec 3) (c : BitVec 8) (r : Bool) (h : BitVec 16) :
    idResp (packId p c r h) = r := by rw [packId_eq_with, idResp_packIdWith]

@[simp] theorem idHash_packId (p : BitVec 3) (c : BitVec 8) (r : Bool) (h : BitVec 16) :
    idHash (packId p c r h) = h := by rw [packId_eq_with, idHash_packIdWith]

@[simp] theorem idBit28_packId (p : BitVec 3) (c : BitVec 8) (r : Bool) (h : BitVec 16) :
    idBit28 (packId p c r h) = false := by rw [packId_eq_with, idBit28_packIdWith]

/-- With bit 28 clear the four fields are the whole identifier. -/
theorem packId_unpack (id : BitVec 29) (h28 : idBit28 id = false) :
    packId (idPrio id) (idCmd id) (idResp id) (idHash id) = id := by
  rw [packId_eq_with, ← h28, packIdWith_unpack]

/-- Settles O6: the fields are the bit fields by definition; both inverses come from those of `packIdWith`, whose
fifth field is bit 28. -/
theorem unpackRecoversThePackedFields : Obligations.UnpackRecoversThePackedFields :=
  ⟨fun _ => ⟨rfl, rfl, rfl, rfl⟩,
    fun p c r h => ⟨idPrio_packId p c r h, idCmd_packId p c r h, idResp_packId p c r h, idHash_packId p c r h⟩,
    packId_unpack⟩

/-! ### Bit 28 of a received identifier -/

/-- Flipping bit 28 flips that field and no other. -/
theorem packIdWith_xor_bit28 (z : Bool) (p : BitVec 3) (c : BitVec 8) (r : Bool) (h : BitVec 16) :
    packIdWith z p c r h ^^^ 0x10000000 = packIdWith (!z) p c r h := by
  rw [packIdWith_eq_append, packIdWith_eq_append]
  apply BitVec.eq_of_getLsbD_eq
  intro i hi
  simp only [BitVec.getLsbD_xor, BitVec.getLsbD_append]
  interval_cases i <;> simp

namespace Machine

/-- The decoded message does not depend on bit 28, here `z`. -/
theorem decodeFrame_packIdWith (z : Bool) (p : BitVec 3) (c : BitVec 8) (r : Bool) (h : BitVec 16) (ext : Bool)
    (dlen : BitVec 4) (pay : Payload) :
    decodeFrame ⟨packIdWith z p c r h, ext, dlen, pay⟩ =
      ⟨p, c, r, h, saturateLen dlen, padZero (saturateLen dlen) pay⟩ := by
  simp only [decodeFrame, idPrio_packIdWith, idCmd_packIdWith, idResp_packIdWith, idHash_packIdWith]

theorem decodeFrame_xor_bit28 (f : Frame) :
    decodeFrame { f with id := f.id ^^^ 0x10000000 } = decodeFrame f := by
  obtain ⟨id, ext, dlen, pay⟩ := f
  rw [← packIdWith_unpack id, packIdWith_xor_bit28, decodeFrame_packIdWith, decodeFrame_packIdWith]

/-! ### What a step offers -/

theorem exchPolled_env_offers (r : Option Frame) (s : State) : (exchPolled r s).env.offers = s.env.offers := by
  cases r with
  | none => rfl
  | some f => simp only [exchPolled]; split <;> simp

@[simp] theorem exPoll_env_offers (s : State) : (exPoll s).env.offers = s.env.offers := by
  simp only [exPoll]
  split
  · simp [exchTimeout]
  · simp [exchPolled_env_offers]

@[simp] theorem ngDraw_env_offers (s : State) : (ngDraw s).env.offers = s.env.offers := rfl

theorem pingAnswered_env (acc : Bool) (s : State) : (pingAnswered acc s).env = s.env := by
  cases acc <;> rfl

@[simp] theorem ngSend_env_offers (s : State) :
    (ngSend s).env.offers = ⟨encodeFrame (pingMessage s.hash), s.txAnswer⟩ :: s.env.offers := by
  simp [ngSend, pingAnswered_env]

@[simp] theorem ngSettle_env_offers (s : State) : (ngSettle s).env.offers = s.env.offers := by
  simp only [ngSettle]
  split <;> simp

theorem drainAnswered_env_offers (r : Option Frame) (s : State) :
    (drainAnswered r s).env.offers = s.env.offers := by
  cases r with
  | none => simp only [drainAnswered]; split <;> simp
  | some f => rfl

@[simp] theorem ngDrain_env_offers (s : State) : (ngDrain s).env.offers = s.env.offers := by
  simp [ngDrain, drainAnswered_env_offers]

/-- At most one frame is offered between `s` and `t`, and it is the encoding of a message. -/
def OffersAtMostAnEncoding (s t : State) : Prop :=
  t.env.offers = s.env.offers ∨ ∃ m acc, t.env.offers = ⟨encodeFrame m, acc⟩ :: s.env.offers

/-- A micro-step of the engine offers an encoded message at most: only a taken word and the ping offer at all. -/
theorem EngineCase.offers {e t : State} (h : EngineCase e t) : OffersAtMostAnEncoding e t := by
  cases h with
  | wait _ _ ht => exact .inl (by rw [ht])
  | taken w ws i _ _ _ ht => exact (exec_frame i _ t ht).offers
  | illegal _ _ _ _ ht => exact .inl (by simp [ht])
  | poll _ ht => exact .inl (by simp [ht])
  | draw _ ht => exact .inl (by simp [ht])
  | ping _ ht => exact .inr ⟨_, _, by rw [ht, ngSend_env_offers]⟩
  | settle _ ht => exact .inl (by simp [ht])
  | drain _ ht => exact .inl (by simp [ht])
  | halted _ ht => exact .inl (by rw [ht])

/-- A step offers an encoded message at most, and only the engine offers. -/
theorem step_offers {s t : State} (h : step s = .next t) : OffersAtMostAnEncoding s t := by
  cases step_cases h with
  | engine e he hc =>
    obtain ⟨ts, rfl⟩ := he.eq_setTurns
    exact hc.offers
  | reset _ _ ht => exact .inl (by simp [ht])
  | bus _ _ _ ht => exact .inl (by simp [ht])
  | outside _ _ _ ht => exact .inl (by simp [ht])

theorem encodeFrame_bit28 (m : Message) : (encodeFrame m).id.getLsbD 28 = false :=
  idBit28_packId m.prio m.cmd m.resp m.hash

/-- The new offer of a step is the encoding of a message. -/
theorem step_new_offer {s t : State} {o : Offer} (h : step s = .next t)
    (ho : t.env.offers = o :: s.env.offers) : ∃ m, o.frame = encodeFrame m := by
  rcases step_offers h with hsame | ⟨m, acc, hnew⟩
  · exact absurd (hsame.symm.trans ho).symm (List.cons_ne_self _ _)
  · obtain ⟨rfl, -⟩ := List.cons.inj (ho.symm.trans hnew)
    exact ⟨m, rfl⟩

/-- Settles O7: a step offers encoded messages only, and decoding reads the four fields only. -/
theorem bit28IsSentClearAndIgnored : Obligations.Bit28IsSentClearAndIgnored := by
  refine ⟨fun s t o hstep hoffer => ?_, decodeFrame_xor_bit28⟩
  obtain ⟨m, hm⟩ := step_new_offer hstep hoffer
  rw [hm]
  exact encodeFrame_bit28 m

end Machine

end Sys2Proof
end

section
/-!
PROOFS. The text form of a message, position by position (30_encoding.md R66).
-/

namespace Sys2Proof.Machine

/-- The data bytes the text form shows are those below `len`. -/
theorem shownBytes_length (m : Message) (hlen : m.len ≤ 8) :
    (m.data.toList.take m.len.toNat).length = m.len.toNat := by
  have hle : m.len.toNat ≤ 8 := hlen
  rw [List.length_take, Vector.length_toList, Nat.min_eq_left hle]

theorem encodeText_length (m : Message) (hlen : m.len ≤ 8) :
    (encodeText m).length = 11 + 3 * m.len.toNat := by
  rw [encodeText_split, List.length_append, dataText_length, shownBytes_length m hlen]
  rfl

/-- Behind the 11 characters of the header stand those of the data bytes. -/
theorem encodeText_getElem?_data (m : Message) (i j : Nat) (hi : i = 11 + j) :
    (encodeText m)[i]? = ((m.data.toList.take m.len.toNat).flatMap fun b => 0x20 :: hexByte b)[j]? := by
  rw [encodeText_split, List.getElem?_append_right (by simp [hi])]
  simp [hi]

/-- The three characters of data byte `k`: a separator and two digits. -/
theorem encodeText_dataByte (m : Message) (hlen : m.len ≤ 8) (k : Fin 8) (hk : k.val < m.len.toNat) :
    (encodeText m)[11 + 3 * k.val]? = some 0x20 ∧
    (encodeText m)[12 + 3 * k.val]? = some (hexChar (m.data[k].extractLsb' 4 4)) ∧
    (encodeText m)[13 + 3 * k.val]? = some (hexChar (m.data[k].extractLsb' 0 4)) := by
  have hshown := dataText_get (m.data.toList.take m.len.toNat) k.val (by rwa [shownBytes_length m hlen])
  rw [List.getElem_take, Vector.getElem_toList] at hshown
  rw [encodeText_getElem?_data m _ (3 * k.val) rfl, encodeText_getElem?_data m _ (3 * k.val + 1) (by omega),
    encodeText_getElem?_data m _ (3 * k.val + 2) (by omega)]
  exact hshown

/-- Settles O12: the header is the first part of `encodeText_split`, the data bytes its second. -/
theorem textFormByPosition : Obligations.TextFormByPosition := by
  intro m hlen
  refine ⟨encodeText_length m hlen, ?_, ?_, ?_, ?_, ?_, ?_, ?_, ?_, ?_, ?_, ?_, encodeText_dataByte m hlen⟩ <;>
    rw [encodeText_split] <;> rfl

end Sys2Proof.Machine
end

section
/-!
PROOFS. The message register operations `CLEAR`, `LDF` and `RDF`: their command words (30_encoding.md R70, R74) and
their effects (40_message_ops.md R91 to R98).
-/

namespace Sys2Proof

/-! ### Command words as the union of their fields -/

/-- The layout of R70 as shifts. -/
theorem cwWord_eq_or (op : BitVec 5) (a b : BitVec 1) (sel : BitVec 5) (imm : BitVec 16) :
    cwWord op a b sel imm = op.setWidth 32 <<< 27 ||| a.setWidth 32 <<< 26 ||| b.setWidth 32 <<< 25 |||
      sel.setWidth 32 <<< 20 ||| imm.setWidth 32 := by
  apply BitVec.eq_of_getLsbD_eq
  intro i hi
  simp only [cwWord, BitVec.getLsbD_append, BitVec.getLsbD_or, BitVec.getLsbD_shiftLeft, BitVec.getLsbD_setWidth]
  interval_cases i <;> simp

/-- A mask written field by field acts on a word field by field. -/
theorem cwWord_and (op mop : BitVec 5) (a ma b mb : BitVec 1) (sel msel : BitVec 5) (mrsv : BitVec 4)
    (imm mimm : BitVec 16) :
    cwWord op a b sel imm &&& (mop ++ ma ++ mb ++ msel ++ mrsv ++ mimm) =
      cwWord (op &&& mop) (a &&& ma) (b &&& mb) (sel &&& msel) (imm &&& mimm) := by
  apply BitVec.eq_of_getLsbD_eq
  intro i hi
  simp only [cwWord, BitVec.getLsbD_and, BitVec.getLsbD_append]
  interval_cases i <;> simp

/-- A word is decoded by row `k` of R74 when the row matches and no row before it has its operation code. -/
theorem decodeCommand_row {w : CommandWord} {op : BitVec 5} {r : CwRow} (hop : w.extractLsb' 27 5 = op) (k : Nat)
    (hrow : cwRows[k]? = some r) (hbefore : ∀ q ∈ cwRows.take k, q.pattern.extractLsb' 27 5 ≠ op)
    (hmatch : w &&& r.mask = r.pattern) : decodeCommand w = .ok (r.build w) := by
  obtain ⟨hk, rfl⟩ := List.getElem?_eq_some_iff.mp hrow
  exact find_row hop cwRows[k] (cwRows.take k) (cwRows.drop (k + 1)) (by simp) hbefore hmatch

theorem decodeCommand_clear (a : MReg) : decodeCommand (cwWord 0x01 (mregBit a) 0 0 0) = .ok (.clear a) := by
  have hmatch : cwWord 0x01 (mregBit a) 0 0 0 &&& 0xFBFFFFFF = 0x08000000 := by
    cases a <;> decide
  rw [decodeCommand_row (cwWord_op _ _ _ _ _) 1 rfl (by decide) hmatch]
  simp [cwA_cwWord]

theorem decodeCommand_ldf (a : MReg) (sel : BitVec 5) (imm : BitVec 16) :
    decodeCommand (cwWord 0x02 (mregBit a) 0 sel imm) = .ok (.ldf a sel imm) := by
  have hmatch : cwWord 0x02 (mregBit a) 0 sel imm &&& 0xFA0F0000 = 0x10000000 :=
    (cwWord_and 0x02 31 _ 0 0 1 sel 0 15 imm 0).trans (by simp [cwWord])
  rw [decodeCommand_row (cwWord_op _ _ _ _ _) 2 rfl (by decide) hmatch]
  simp [cwA_cwWord, cwSel_cwWord, cwImm_cwWord]

theorem decodeCommand_rdf (a : MReg) (sel : BitVec 5) :
    decodeCommand (cwWord 0x03 (mregBit a) 0 sel 0) = .ok (.rdf a sel) := by
  have hmatch : cwWord 0x03 (mregBit a) 0 sel 0 &&& 0xFA0FFFFF = 0x18000000 :=
    (cwWord_and 0x03 31 _ 0 0 1 sel 0 15 0 0xFFFF).trans (by simp [cwWord])
  rw [decodeCommand_row (cwWord_op _ _ _ _ _) 3 rfl (by decide) hmatch]
  simp [cwA_cwWord, cwSel_cwWord]

theorem commandIs_of_decode {i : Instr} {v w : CommandWord} (henc : encode i = .command v) (hword : v = w)
    (hdec : decodeCommand v = .ok i) : CommandIs i w :=
  hword ▸ ⟨henc, hdec⟩

theorem commandIs_clear (a : MReg) : CommandIs (.clear a) (0x08000000 ||| aField a) :=
  commandIs_of_decode rfl (by simp [cwWord_eq_or, aField]) (decodeCommand_clear a)

theorem commandIs_ldf (a : MReg) (sel : BitVec 5) (imm : BitVec 16) :
    CommandIs (.ldf a sel imm) (0x10000000 ||| aField a ||| selField sel ||| imm.zeroExtend 32) :=
  commandIs_of_decode rfl (by simp [cwWord_eq_or, aField, selField]) (decodeCommand_ldf a sel imm)

theorem commandIs_rdf (a : MReg) (sel : BitVec 5) :
    CommandIs (.rdf a sel) (0x18000000 ||| aField a ||| selField sel) :=
  commandIs_of_decode rfl (by simp [cwWord_eq_or, aField, selField]) (decodeCommand_rdf a sel)

namespace Machine

/-! ### Fields of a message -/

theorem Field.write_prio (v : BitVec 16) (m : Message) : Field.prio.write v m = { m with prio := v.setWidth 3 } := by
  rw [BitVec.setWidth_eq_extractLsb' (by decide)]
  rfl

theorem Field.write_cmd (v : BitVec 16) (m : Message) : Field.cmd.write v m = { m with cmd := v.setWidth 8 } := by
  rw [BitVec.setWidth_eq_extractLsb' (by decide)]
  rfl

theorem Field.write_len (v : BitVec 16) (m : Message) : Field.len.write v m = { m with len := v.setWidth 4 } := by
  rw [BitVec.setWidth_eq_extractLsb' (by decide)]
  rfl

theorem Field.write_byte (k : Fin 8) (v : BitVec 16) (m : Message) :
    (Field.byte k).write v m = { m with data := m.data.set k (v.setWidth 8) } := by
  rw [BitVec.setWidth_eq_extractLsb' (by decide)]
  rfl

/-- The more significant byte goes to the lower index (R95). -/
theorem Field.write_pair (k : Nat) (hk : k < 7) (v : BitVec 16) (m : Message) : (Field.pair ⟨k, hk⟩).write v m =
    { m with data := (m.data.set k (v.extractLsb' 8 8)).set (k + 1) (v.setWidth 8) } := by
  rw [BitVec.setWidth_eq_extractLsb' (by decide)]
  rfl

theorem Field.read_resp (m : Message) : Field.resp.read m = if m.resp then 1 else 0 := by
  cases h : m.resp <;> simp [Field.read, h]

/-- The more significant byte comes from the lower index (R98). -/
theorem Field.read_pair (k : Nat) (hk : k < 7) (m : Message) :
    (Field.pair ⟨k, hk⟩).read m = BitVec.ofNat 32 (m.data[k].toNat * 256 + m.data[k + 1].toNat) := by
  rw [← toNat_joinBytes, BitVec.ofNat_toNat]
  rfl

/-! ### Execution -/

theorem exec_clear (a : MReg) (s : State) :
    exec (.clear a) s = .next ((s.setMsg a Message.cleared).respond true 0 0) := rfl

theorem exec_ldf (a : MReg) (sel : BitVec 5) (imm : BitVec 16) (s : State) :
    exec (.ldf a sel imm) s = .next (loadField a sel imm s) := rfl

theorem exec_rdf (a : MReg) (sel : BitVec 5) (s : State) :
    exec (.rdf a sel) s = .next (readField a sel s) := rfl

/-- A field that holds every 16-bit value is loaded without a range check. -/
theorem exec_ldf_loads {sel : BitVec 5} {f : Field} (hf : fieldOf sel = some f) (hmax : f.max = 65535) {a : MReg}
    {imm : BitVec 16} {s : State} {m : Message} (hm : f.write imm (s.msg a) = m) :
    exec (.ldf a sel imm) s = .next ((s.setMsg a m).respond true 0 0) := by
  have hle : imm.toNat ≤ f.max := by
    have := imm.isLt
    omega
  rw [exec_ldf, loadField_named a sel imm s f hf hle, hm]

/-- A field with a bound is loaded with an immediate within it; one above it is refused (R94). -/
theorem exec_ldf_loads_or_refuses {sel : BitVec 5} {f : Field} (hf : fieldOf sel = some f) {bound : BitVec 16}
    (hmax : f.max = bound.toNat) {a : MReg} {imm : BitVec 16} {s : State} {m : Message}
    (hm : f.write imm (s.msg a) = m) :
    if imm ≤ bound then exec (.ldf a sel imm) s = .next ((s.setMsg a m).respond true 0 0)
    else exec (.ldf a sel imm) s = .next (s.refuse .badArgument) := by
  rw [exec_ldf]
  split
  next hle => rw [loadField_named a sel imm s f hf (hmax ▸ BitVec.le_def.mp hle), hm]
  next hgt => rw [loadField_over a sel imm s f hf (hmax ▸ BitVec.lt_def.mp (BitVec.not_le.mp hgt))]

theorem exec_ldf_refuses {sel : BitVec 5} (hf : fieldOf sel = none) (a : MReg) (imm : BitVec 16) (s : State) :
    exec (.ldf a sel imm) s = .next (s.refuse .badArgument) := by
  rw [exec_ldf, loadField_unnamed a sel imm s hf]

theorem exec_rdf_answers {sel : BitVec 5} {f : Field} (hf : fieldOf sel = some f) {a : MReg} {s : State}
    {v : BitVec 32} (hv : f.read (s.msg a) = v) : exec (.rdf a sel) s = .next (s.respond true 0 v) := by
  rw [exec_rdf, readField_named a sel s f hf, hv]

theorem exec_rdf_refuses {sel : BitVec 5} (hf : fieldOf sel = none) (a : MReg) (s : State) :
    exec (.rdf a sel) s = .next (s.refuse .badArgument) := by
  rw [exec_rdf, readField_unnamed a sel s hf]

/-! ### The obligations -/

/-- Settles O21, field by field: the selector names the field, `Field.max` is the bound, `Field.write` the load. -/
theorem ldfLoadsTheSelectedField : Obligations.LdfLoadsTheSelectedField := by
  intro a sel imm s
  refine ⟨commandIs_ldf a sel imm, ?prio, ?cmd, ?resp, ?hash, ?len, ?byte, ?pair, ?unnamed⟩
  case prio =>
    exact fun h => exec_ldf_loads_or_refuses (f := .prio) (bound := 7) (congrArg fieldOf h) rfl (Field.write_prio _ _)
  case cmd =>
    exact fun h => exec_ldf_loads_or_refuses (f := .cmd) (bound := 255) (congrArg fieldOf h) rfl (Field.write_cmd _ _)
  case resp => exact fun h => exec_ldf_loads_or_refuses (f := .resp) (bound := 1) (congrArg fieldOf h) rfl rfl
  case hash => exact fun h => exec_ldf_loads (f := .hash) (congrArg fieldOf h) rfl rfl
  case len =>
    exact fun h => exec_ldf_loads_or_refuses (f := .len) (bound := 8) (congrArg fieldOf h) rfl (Field.write_len _ _)
  case byte =>
    exact fun k h => exec_ldf_loads_or_refuses (bound := 255) (fieldOf_byte sel k h) rfl (Field.write_byte k _ _)
  case pair => exact fun k hk h => exec_ldf_loads (fieldOf_pair sel ⟨k, hk⟩ h) rfl (Field.write_pair k hk _ _)
  case unnamed => exact fun h => exec_ldf_refuses (fieldOf_none_of_unnamed sel h) a imm s

/-- Settles O22, field by field: the selector names the field, `Field.read` is the answer. -/
theorem rdfAnswersTheSelectedField : Obligations.RdfAnswersTheSelectedField := by
  intro a sel s
  refine ⟨commandIs_rdf a sel, ?prio, ?cmd, ?resp, ?hash, ?len, ?byte, ?pair, ?unnamed⟩
  case prio => exact fun h => exec_rdf_answers (f := .prio) (congrArg fieldOf h) rfl
  case cmd => exact fun h => exec_rdf_answers (f := .cmd) (congrArg fieldOf h) rfl
  case resp => exact fun h => exec_rdf_answers (f := .resp) (congrArg fieldOf h) (Field.read_resp _)
  case hash => exact fun h => exec_rdf_answers (f := .hash) (congrArg fieldOf h) rfl
  case len => exact fun h => exec_rdf_answers (f := .len) (congrArg fieldOf h) rfl
  case byte => exact fun k h => exec_rdf_answers (fieldOf_byte sel k h) rfl
  case pair => exact fun k hk h => exec_rdf_answers (fieldOf_pair sel ⟨k, hk⟩ h) (Field.read_pair k hk _)
  case unnamed => exact fun h => exec_rdf_refuses (fieldOf_none_of_unnamed sel h) a s

/-- Settles O20: the two registers are the two cases of `State.setMsg`. -/
theorem clearZeroesItsRegister : Obligations.ClearZeroesItsRegister :=
  ⟨commandIs_clear, fun s => ⟨exec_clear .m0 s, exec_clear .m1 s⟩⟩

end Machine

end Sys2Proof
end

section
/-!
PROOFS. Frame input and output: what the frame codec puts into each field (41_frame_io.md R113, R115), and the
operations `SEND` and `RECV` (R112, R114) with their command words (30_encoding.md R70, R74).
-/

namespace Sys2Proof

/-! ### Command words whose one operand is a message register -/

/-- The mask `0xFBFFFFFF` looks at every bit but that of `a` (R74). -/
theorem cwWord_and_all_but_a (op : BitVec 5) (a : MReg) :
    cwWord op (mregBit a) 0 0 0 &&& 0xFBFFFFFF = cwWord op 0 0 0 0 := by
  have op_kept : op &&& 31#5 = op := BitVec.and_allOnes
  exact (cwWord_and op 31 _ 0 0 1 0 31 15 0 0xFFFF).trans (by simp [op_kept])

/-- A row of R74 with that mask decodes its word to its operation on `M[a]`. -/
theorem decodeCommand_onRegister {op : BitVec 5} {f : MReg → Instr} (k : Nat)
    (hrow : cwRows[k]? = some ⟨0xFBFFFFFF, cwWord op 0 0 0 0, fun w => f (cwA w)⟩)
    (hbefore : ∀ q ∈ cwRows.take k, q.pattern.extractLsb' 27 5 ≠ op) (a : MReg) :
    decodeCommand (cwWord op (mregBit a) 0 0 0) = .ok (f a) := by
  rw [decodeCommand_row (cwWord_op _ _ _ _ _) k hrow hbefore (cwWord_and_all_but_a op a)]
  simp [cwA_cwWord]

theorem decodeCommand_send (a : MReg) : decodeCommand (cwWord 0x04 (mregBit a) 0 0 0) = .ok (.send a) :=
  decodeCommand_onRegister 4 rfl (by decide) a

theorem decodeCommand_recv (a : MReg) : decodeCommand (cwWord 0x05 (mregBit a) 0 0 0) = .ok (.recv a) :=
  decodeCommand_onRegister 5 rfl (by decide) a

theorem commandIs_send (a : MReg) : CommandIs (.send a) (0x20000000 ||| aField a) :=
  commandIs_of_decode rfl (by simp [cwWord_eq_or, aField]) (decodeCommand_send a)

theorem commandIs_recv (a : MReg) : CommandIs (.recv a) (0x28000000 ||| aField a) :=
  commandIs_of_decode rfl (by simp [cwWord_eq_or, aField]) (decodeCommand_recv a)

namespace Machine

/-! ### The frame codec, field by field -/

theorem encodeFrame_pay_get (m : Message) (k : Fin 8) :
    (encodeFrame m).pay[k] = if k.val < m.len.toNat then m.data[k] else 0 :=
  padZero_get m.len m.data k

theorem decodeFrame_data_get (f : Frame) (k : Fin 8) :
    (decodeFrame f).data[k] = if k.val < (decodeFrame f).len.toNat then f.pay[k] else 0 :=
  padZero_get (saturateLen f.dlen) f.pay k

/-- Settles O8: the scalar fields stand in the two definitions as R113 and R115 give them; both payloads are padded by
`padZero`. -/
theorem frameCodecFields : Obligations.FrameCodecFields :=
  ⟨fun m => ⟨rfl, rfl, rfl, encodeFrame_pay_get m⟩,
    fun f => ⟨rfl, rfl, rfl, rfl, rfl, decodeFrame_data_get f⟩⟩

/-! ### SEND -/

/-- The stamped message is what is written back and what is encoded; the stamp touches no draw. -/
theorem exec_send (a : MReg) (s : State) :
    exec (.send a) s = .next (sendAnswered (encodeFrame { s.msg a with hash := s.hash }) s.txAnswer
      ((s.stamp a).offer (encodeFrame { s.msg a with hash := s.hash }))) := by
  have exec_is_send : exec (.send a) s = .next (sendAnswered (encodeFrame ((s.stamp a).msg a)) (s.stamp a).txAnswer
      ((s.stamp a).offer (encodeFrame ((s.stamp a).msg a)))) := rfl
  rw [exec_is_send, State.stamp_msg_same, State.stamp_txAnswer]

theorem sendAnswered_accepted (f : Frame) (s : State) :
    sendAnswered f true s = s.respond true 0 (f.id.zeroExtend 32) := rfl

/-- A rejected `SEND` is answered with the identifier too, so it is no `State.refuse`. -/
theorem sendAnswered_rejected (f : Frame) (s : State) :
    sendAnswered f false s = (s.raise .sendFailure).respond false 1 (f.id.zeroExtend 32) := rfl

/-- Settles O24: the two answers of the transport are the two cases of `sendAnswered`. -/
theorem sendStampsOffersAndAnswers : Obligations.SendStampsOffersAndAnswers := by
  intro a s
  refine ⟨commandIs_send a, fun haccepted => ?_, fun hrejected => ?_⟩
  · rw [exec_send, haccepted, sendAnswered_accepted, State.stamp]
  · rw [exec_send, hrejected, sendAnswered_rejected, State.stamp]

/-! ### RECV -/

theorem exec_recv (a : MReg) (s : State) :
    exec (.recv a) s = .next (recvAnswered a s.rxAnswer s.polled) := rfl

theorem recvAnswered_none (a : MReg) (s : State) : recvAnswered a none s = s.respond false 0 0 := rfl

theorem recvAnswered_some (a : MReg) (f : Frame) (s : State) :
    recvAnswered a (some f) s = (s.setMsg a (decodeFrame f)).respond true 0 (f.id.zeroExtend 32) := rfl

/-- Settles O25: the two answers of the one poll are the two cases of `recvAnswered`. -/
theorem recvPollsOnce : Obligations.RecvPollsOnce := by
  intro a s
  refine ⟨commandIs_recv a, fun hnone => ?_, fun f hframe => ?_⟩
  · rw [exec_recv, hnone, recvAnswered_none]
  · rw [exec_recv, hframe, recvAnswered_some]

end Machine

end Sys2Proof
end

section
/-!
PROOFS. The exchange sequencer: the command word of `EXCH` (30_encoding.md R70, R74), its first micro-step
(42_exchange.md R126, R127) and the `EX_POLL` micro-step (R128).
-/

namespace Sys2Proof

/-! ### The command word -/

theorem decodeCommand_exch (a b : MReg) :
    decodeCommand (cwWord 0x06 (mregBit a) (mregBit b) 0 0) = .ok (.exch a b) := by
  have hmatch : cwWord 0x06 (mregBit a) (mregBit b) 0 0 &&& 0xF9FFFFFF = 0x30000000 := by
    cases a <;> cases b <;> decide
  rw [decodeCommand_row (cwWord_op _ _ _ _ _) 6 rfl (by decide) hmatch]
  simp [cwA_cwWord, cwB_cwWord]

theorem commandIs_exch (a b : MReg) : CommandIs (.exch a b) (0x30000000 ||| aField a ||| bField b) :=
  commandIs_of_decode rfl (by simp [cwWord_eq_or, aField, bField]) (decodeCommand_exch a b)

namespace Machine

/-! ### The first micro-step -/

/-- The captures change neither the message that is stamped nor the stamp. -/
theorem exchBegin_stamp (a b : MReg) (s : State) :
    (exchBegin a b s).stamp a = (exchBegin a b s).setMsg a { s.msg a with hash := s.hash } := by
  rw [State.stamp, exchBegin_msg, exchBegin_hash]

/-- Captures and stamp, then the one offer, then what its answer decides. -/
theorem exec_exch (a b : MReg) (s : State) {m : Message} {s1 : State} (hm : m = { s.msg a with hash := s.hash })
    (hs1 : s1 = (exchBegin a b s).setMsg a m) :
    exec (.exch a b) s = .next (exchAnswered s1.txAnswer (s1.offer (encodeFrame m))) := by
  have exec_is_exch : exec (.exch a b) s = .next (exchAnswered ((exchBegin a b s).stamp a).txAnswer
      (((exchBegin a b s).stamp a).offer (encodeFrame (((exchBegin a b s).stamp a).msg a)))) := rfl
  rw [exec_is_exch, exchBegin_stamp, State.setMsg_msg_same, hs1, hm]

/-- Neither the captures nor the stamp nor the offer touch the policy `CFG.SFPOL`. -/
theorem sfpolHalt_after_offer (a b : MReg) (s : State) (m : Message) (f : Frame) :
    (((exchBegin a b s).setMsg a m).offer f).sfpolHalt = s.cfg.getLsbD 2 := by
  rw [State.sfpolHalt, State.offer_cfg, State.setMsg_cfg, exchBegin_cfg]

/-- Settles O26: the transport's answer and the policy choose between the ends of `exchAnswered`. -/
theorem exchSendsAndStartsPolling : Obligations.ExchSendsAndStartsPolling := by
  intro a b s m s1 s2
  have hexec : exec (.exch a b) s = .next (exchAnswered s1.txAnswer s2) := exec_exch a b s rfl rfl
  have hpolicy : s2.sfpolHalt = s.cfg.getLsbD 2 := sfpolHalt_after_offer a b s m (encodeFrame m)
  refine ⟨commandIs_exch a b, fun haccepted => ?_, fun hrejected hcontinue => ?_, fun hrejected hhalt => ?_⟩
  · rw [hexec, haccepted, exchAnswered_accepted, State.setPhase]
  · rw [hexec, hrejected, exchAnswered_continue s2 (hpolicy.trans hcontinue)]
  · rw [hexec, hrejected, exchAnswered_halt s2 (hpolicy.trans hhalt)]

/-! ### The `EX_POLL` micro-step -/

theorem step_exPoll {s e : State} (hmoves : s.EngineMoves e) (hphase : s.phase = .exPoll) :
    step s = .next (exPoll e) := by
  have hnot_halted : s.phase ≠ .halted := by
    rw [hphase]
    decide
  rw [step_engine hmoves hnot_halted, engineTurn_exPoll (hmoves.phase_eq.trans hphase)]

/-- The timeout exit polls nothing: its state is the one the clock read left. -/
theorem exPoll_expired (e : State) (hexpired : e.timeout.toNat ≤ (e.clock - e.t0).toNat) :
    exPoll e =
      (e.clockRead.raise .responseTimeout).respond false (if e.xerr ≠ 0 then e.xerr else 2) 0 :=
  if_pos ((exchExpired_iff e e.clock).mpr hexpired)

theorem exPoll_polls (e : State) (hleft : ¬e.timeout.toNat ≤ (e.clock - e.t0).toNat) :
    exPoll e = exchPolled e.clockRead.rxAnswer e.clockRead.polled :=
  if_neg (mt (exchExpired_iff e e.clock).mp hleft)

theorem exchPolled_none (s : State) : exchPolled none s = s := rfl

theorem exchPolled_match (f : Frame) (s : State)
    (hmatch : (decodeFrame f).cmd = s.xcmd ∧ (decodeFrame f).resp = true) :
    exchPolled (some f) s =
      ((s.setScr (decodeFrame f)).setMsg s.xdst (decodeFrame f)).respond true s.xerr (f.id.zeroExtend 32) :=
  if_pos ((exchMatches_iff s _).mpr hmatch)

theorem exchPolled_other (f : Frame) (s : State)
    (hother : ¬((decodeFrame f).cmd = s.xcmd ∧ (decodeFrame f).resp = true)) :
    exchPolled (some f) s = s.setScr (decodeFrame f) :=
  if_neg (mt (exchMatches_iff s _).mp hother)

/-- Settles O27: the timeout test chooses between the exit and the poll, the poll's answer between the cases of
`exchPolled`. The micro-step starts in a state that differs from `s` in the turns alone, which neither looks at. -/
theorem exPollMicroStep : Obligations.ExPollMicroStep := by
  intro s e hmoves hphase
  have hstep : step s = .next (exPoll e) := step_exPoll hmoves hphase
  obtain ⟨ts, rfl⟩ := hmoves.eq_setTurns
  refine ⟨fun hexpired => ?expired, fun hleft hnone => ?nothing, fun hleft f hframe =>
    ⟨fun hmatch => ?answered, fun hother => ?discarded⟩⟩
  case expired => rw [hstep, exPoll_expired (s.setTurns ts) hexpired, State.setTurns_xerr]
  case nothing => rw [hstep, exPoll_polls (s.setTurns ts) hleft, hnone, exchPolled_none]
  case answered =>
    rw [hstep, exPoll_polls (s.setTurns ts) hleft, hframe, exchPolled_match f (s.setTurns ts).clockRead.polled hmatch]
    rfl
  case discarded =>
    rw [hstep, exPoll_polls (s.setTurns ts) hleft, hframe, exchPolled_other f (s.setTurns ts).clockRead.polled hother,
      State.setScr]

end Machine

end Sys2Proof
end

section
/-!
PROOFS. The identity arbiter: the command word of `NEGOTIATE` (30_encoding.md R70, R74) and its first micro-step
(43_negotiation.md R140), then the micro-steps `NG_SEND`, `NG_SETTLE` and `NG_DRAIN` (R143 to R145).
-/

namespace Sys2Proof

/-! ### NEGOTIATE -/

theorem decodeCommand_negotiate : decodeCommand (cwWord 0x07 0 0 0 0) = .ok .negotiate :=
  decodeCommand_row (cwWord_op _ _ _ _ _) 7 rfl (by decide) (by decide)

theorem commandIs_negotiate : CommandIs .negotiate 0x38000000 :=
  commandIs_of_decode rfl (by decide) decodeCommand_negotiate

namespace Machine

theorem exec_negotiate (s : State) : exec .negotiate s = .next { s with xerr := 0, phase := .ngDraw } := rfl

/-- Settles O29: the word has row 7 of R74 to itself, and the operation looks at neither `HASH` nor `ACTIVE`. -/
theorem negotiateStartsTheArbiter : Obligations.NegotiateStartsTheArbiter :=
  ⟨commandIs_negotiate, exec_negotiate⟩

/-! ### The engine's turn in a phase of the arbiter -/

theorem Phase.Arbiter.ne_halted {p : Phase} (h : p.Arbiter) : p ≠ .halted := by
  obtain rfl | rfl | rfl | rfl := h <;> decide

theorem step_arbiter {s e : State} (hmoves : s.EngineMoves e) (harbiter : s.phase.Arbiter) :
    step s = engineTurn e :=
  step_engine hmoves harbiter.ne_halted

theorem step_ngSend {s e : State} (hmoves : s.EngineMoves e) (hphase : s.phase = .ngSend) :
    step s = .next (ngSend e) := by
  rw [step_arbiter hmoves (.inr (.inl hphase)), engineTurn_ngSend (hmoves.phase_eq.trans hphase)]

theorem step_ngSettle {s e : State} (hmoves : s.EngineMoves e) (hphase : s.phase = .ngSettle) :
    step s = .next (ngSettle e) := by
  rw [step_arbiter hmoves (.inr (.inr (.inl hphase))), engineTurn_ngSettle (hmoves.phase_eq.trans hphase)]

theorem step_ngDrain {s e : State} (hmoves : s.EngineMoves e) (hphase : s.phase = .ngDrain) :
    step s = .next (ngDrain e) := by
  rw [step_arbiter hmoves (.inr (.inr (.inr hphase))), engineTurn_ngDrain (hmoves.phase_eq.trans hphase)]

/-! ### NG_SEND -/

/-- The ping field by field, as R143 writes it. -/
theorem pingMessage_eq (hash : BitVec 16) :
    pingMessage hash = ⟨0, 0x18, false, hash, 0, Vector.replicate 8 0⟩ := rfl

theorem pingAnswered_accepted (s : State) : pingAnswered true s = s := rfl

theorem pingAnswered_rejected (s : State) : pingAnswered false s = s.raise .sendFailure := rfl

/-- The end of `NG_SEND`: the settle interval starts at the clock read after the send. -/
theorem ngSend_eq (s s2 : State)
    (hs2 : s2 = pingAnswered s.txAnswer ((s.setScr (pingMessage s.hash)).offer (encodeFrame (pingMessage s.hash)))) :
    ngSend s = { s2.clockRead with t0 := s2.clock, contested := false, phase := .ngSettle } := by
  subst hs2
  rfl

/-- Settles O32: the transport's answer chooses between the cases of `pingAnswered`, and both go on to the settle
interval. -/
theorem ngSendOffersThePing : Obligations.NgSendOffersThePing := by
  intro s e hmoves hphase ping e1 e2
  have hhash : e.hash = s.hash := by
    obtain ⟨ts, rfl⟩ := hmoves.eq_setTurns
    exact State.setTurns_hash s ts
  have hping : pingMessage e.hash = ping := by rw [hhash, pingMessage_eq]
  have hanswered : e2 = pingAnswered e.txAnswer ((e.setScr (pingMessage e.hash)).offer
      (encodeFrame (pingMessage e.hash))) := by
    rw [hping]
    cases hacc : e.txAnswer
    case true => exact if_pos hacc
    case false => exact if_neg (Bool.eq_false_iff.mp hacc)
  rw [step_ngSend hmoves hphase, ngSend_eq e e2 hanswered]

/-! ### NG_SETTLE -/

theorem ngSettle_over (s : State) (hover : Config.settleMs.toNat ≤ (s.clock - s.t0).toNat) :
    ngSettle s = s.clockRead.setPhase .ngDrain :=
  if_pos ((settled_iff _ _ _).mpr hover)

theorem ngSettle_waits (s : State) (hleft : ¬Config.settleMs.toNat ≤ (s.clock - s.t0).toNat) :
    ngSettle s = s.clockRead :=
  if_neg (mt (settled_iff _ _ _).mp hleft)

/-- Settles O33: the elapsed time chooses between the two cases, and the clock read is all they do to the
environment. -/
theorem ngSettleWaits : Obligations.NgSettleWaits := by
  intro s e hmoves hphase
  have ht0 : e.t0 = s.t0 := by
    obtain ⟨ts, rfl⟩ := hmoves.eq_setTurns
    exact State.setTurns_t0 s ts
  rw [step_ngSettle hmoves hphase, ← ht0]
  split
  next hover => rw [ngSettle_over e hover, State.setPhase]
  next hleft => rw [ngSettle_waits e hleft]

/-! ### NG_DRAIN -/

theorem drainAnswered_some (f : Frame) (s : State) :
    drainAnswered (some f) s =
      { s with scr := decodeFrame f, contested := s.contested || (decodeFrame f).hash == s.hash } := rfl

theorem drainAnswered_contested (s : State) (hcontested : s.contested = true) :
    drainAnswered none s = s.setPhase .ngDraw :=
  if_pos hcontested

theorem drainAnswered_accepts (s : State) (hfree : s.contested = false) :
    drainAnswered none s = s.respond true 0 (s.hash.zeroExtend 32) :=
  if_neg (Bool.eq_false_iff.mp hfree)

theorem ngDrain_of_answer {s : State} {r : Option Frame} (hr : s.rxAnswer = r) :
    ngDrain s = drainAnswered r s.polled := by
  rw [ngDrain, hr]

/-- Settles O34: the poll's answer and `CONTESTED` choose between the cases of `drainAnswered`. The micro-step starts
in a state that differs from `s` in the turns alone, which neither looks at. -/
theorem ngDrainMicroStep : Obligations.NgDrainMicroStep := by
  intro s e hmoves hphase
  have hstep : step s = .next (ngDrain e) := step_ngDrain hmoves hphase
  obtain ⟨ts, rfl⟩ := hmoves.eq_setTurns
  refine ⟨fun f hframe => ?compared, fun hnone hcontested => ?drawsAgain, fun hnone hfree => ?accepted⟩
  case compared =>
    rw [hstep, ngDrain_of_answer hframe]
    exact congrArg Host.Outcome.next (drainAnswered_some f (s.setTurns ts).polled)
  case drawsAgain =>
    rw [hstep, ngDrain_of_answer hnone, drainAnswered_contested (s.setTurns ts).polled hcontested, State.setPhase]
  case accepted =>
    rw [hstep, ngDrain_of_answer hnone, drainAnswered_accepts (s.setTurns ts).polled hfree, State.polled_hash,
      State.setTurns_hash]

end Machine

end Sys2Proof
end

section
/-!
PROOFS. The digits of the text form and the decoder, position by position (44_text_codec.md R161, R164).
-/

namespace Sys2Proof.Machine

/-! ### Hexadecimal digits -/

theorem hexChar_toNat (d : BitVec 4) :
    (hexChar d).toNat = if d.toNat < 10 then 0x30 + d.toNat else 0x41 + (d.toNat - 10) := by
  have digit_iff : d < 10 ↔ d.toNat < 10 := BitVec.lt_def
  simp only [hexChar, digit_iff]
  split <;> bv_omega

/-- A character at or above `base` stands for the number `shift` above its distance from `base`. -/
theorem digit_above (c base : Byte) (shift : Nat) (hbase : base ≤ c) :
    (c - base + BitVec.ofNat 8 shift).setWidth 4 = BitVec.ofNat 4 (c.toNat - base.toNat + shift) := by
  apply BitVec.eq_of_toNat_eq
  simp only [BitVec.toNat_setWidth, BitVec.toNat_ofNat, BitVec.toNat_add, BitVec.toNat_sub_of_le hbase]
  omega

theorem hexVal_eq (c : Byte) : hexVal c =
    if 0x30 ≤ c.toNat ∧ c.toNat ≤ 0x39 then some (BitVec.ofNat 4 (c.toNat - 0x30))
    else if 0x41 ≤ c.toNat ∧ c.toNat ≤ 0x46 then some (BitVec.ofNat 4 (c.toNat - 0x41 + 10))
    else if 0x61 ≤ c.toNat ∧ c.toNat ≤ 0x66 then some (BitVec.ofNat 4 (c.toNat - 0x61 + 10))
    else none := by
  refine if_ctx_congr .rfl (fun hdecimal => ?_) fun _ => if_ctx_congr .rfl (fun hupper => ?_) fun _ =>
    if_ctx_congr .rfl (fun hlower => ?_) fun _ => rfl
  · exact congrArg some (by simpa using digit_above c 0x30 0 hdecimal.1)
  · exact congrArg some (digit_above c 0x41 10 hupper.1)
  · exact congrArg some (digit_above c 0x61 10 hlower.1)

theorem hiByte_nibble (v : BitVec 16) (i : Nat) (hi : i + 4 ≤ 8) :
    (hiByte v).extractLsb' i 4 = v.extractLsb' (8 + i) 4 := by
  apply BitVec.eq_of_getLsbD_eq
  intro j hj
  have hlow : i + j < 8 := by omega
  simp [hiByte, hj, hlow, Nat.add_assoc]

theorem loByte_nibble (v : BitVec 16) (i : Nat) (hi : i + 4 ≤ 8) :
    (loByte v).extractLsb' i 4 = v.extractLsb' i 4 :=
  BitVec.extractLsb'_extractLsb'_of_le hi

theorem hexWord_eq (v : BitVec 16) : hexWord v = [hexChar (v.extractLsb' 12 4), hexChar (v.extractLsb' 8 4),
    hexChar (v.extractLsb' 4 4), hexChar (v.extractLsb' 0 4)] := by
  simp [hexWord, hexByte, hiByte_nibble, loByte_nibble]

/-- Settles O11, function by function. -/
theorem hexDigitsFollowAscii : Obligations.HexDigitsFollowAscii :=
  ⟨hexChar_toNat, hexVal_eq, hexWord_eq, fun _ => rfl⟩

/-! ### The numbers the decoder reads, digit by digit -/

theorem nibbles_eq_iff (b : Byte) (hi lo : BitVec 4) : b = hi ++ lo ↔ b.toNat = hi.toNat * 16 + lo.toNat := by
  rw [← toNat_nibbles, BitVec.toNat_inj]

theorem byteAt_eq_some_iff_digits (cs : List Byte) (i : Nat) (b : Byte) :
    byteAt cs i = some b ↔ ∃ d1 d0 : BitVec 4,
      digitAt cs i = some d1 ∧ digitAt cs (i + 1) = some d0 ∧ b.toNat = d1.toNat * 16 + d0.toNat := by
  simp only [byteAt_eq_some, nibbles_eq_iff]

/-- A 16-bit value is read from two bytes that stand side by side, the more significant first. -/
def WordAt (cs : List Byte) (i : Nat) (v : BitVec 16) : Prop :=
  ∃ hi lo : Byte, byteAt cs i = some hi ∧ byteAt cs (i + 2) = some lo ∧ v = joinBytes hi lo

theorem wordAt_iff_digits (cs : List Byte) (i : Nat) (v : BitVec 16) :
    WordAt cs i v ↔ ∃ d3 d2 d1 d0 : BitVec 4,
      digitAt cs i = some d3 ∧ digitAt cs (i + 1) = some d2 ∧ digitAt cs (i + 2) = some d1 ∧
      digitAt cs (i + 3) = some d0 ∧
      v.toNat = d3.toNat * 4096 + d2.toNat * 256 + d1.toNat * 16 + d0.toNat := by
  have toNat_digits (d3 d2 d1 d0 : BitVec 4) : (joinBytes (d3 ++ d2) (d1 ++ d0)).toNat =
      d3.toNat * 4096 + d2.toNat * 256 + d1.toNat * 16 + d0.toNat := by
    rw [toNat_joinBytes, toNat_nibbles, toNat_nibbles]
    omega
  simp only [WordAt, byteAt_eq_some]
  constructor
  · rintro ⟨_, _, ⟨d3, d2, h3, h2, rfl⟩, ⟨d1, d0, h1, h0, rfl⟩, rfl⟩
    exact ⟨d3, d2, d1, d0, h3, h2, h1, h0, toNat_digits d3 d2 d1 d0⟩
  · rintro ⟨d3, d2, d1, d0, h3, h2, h1, h0, hv⟩
    exact ⟨_, _, ⟨d3, d2, h3, h2, rfl⟩, ⟨d1, d0, h1, h0, rfl⟩,
      BitVec.eq_of_toNat_eq (hv.trans (toNat_digits d3 d2 d1 d0).symm)⟩

/-! ### The payload the decoder reads -/

/-- The payload holds the data bytes of the string below `n` and zero from `n` on. -/
def PayloadAt (cs : List Byte) (n : Nat) (d : Payload) : Prop :=
  (∀ k : Fin 8, k.val < n → byteAt cs (12 + 3 * k.val) = some d[k]) ∧ ∀ k : Fin 8, n ≤ k.val → d[k] = 0

/-- A payload that is zero from `n` on is determined by its first `n` bytes. -/
theorem payloadOf_take {d : Payload} {n : Nat} (hpad : ∀ k : Fin 8, n ≤ k.val → d[k] = 0) :
    payloadOf (d.toList.take n) = d := by
  apply Vector.ext
  intro k hk
  have hget := payloadOf_get (d.toList.take n) ⟨k, hk⟩
  by_cases hkn : k < n
  · simpa [List.getD_eq_getElem?_getD, List.getElem?_take, hkn, hk] using hget
  · have hzero := hpad ⟨k, hk⟩ (Nat.le_of_not_lt hkn)
    simp_all [List.getD_eq_getElem?_getD]

theorem payloadAt_iff (cs : List Byte) (n : Nat) (hn : n ≤ 8) (d : Payload) :
    PayloadAt cs n d ↔ ∃ bs, bytesAt cs n = some bs ∧ d = payloadOf bs := by
  simp only [bytesAt_eq_some]
  constructor
  · rintro ⟨hread, hpad⟩
    refine ⟨d.toList.take n, ⟨by simpa using hn, fun k hk => ?_⟩, (payloadOf_take hpad).symm⟩
    have hkn : k < n ∧ k < 8 := by simpa using hk
    simpa using hread ⟨k, hkn.2⟩ hkn.1
  · rintro ⟨bs, ⟨rfl, hread⟩, rfl⟩
    refine ⟨fun k hk => ?_, fun k hk => ?_⟩
    · rw [hread k hk, payloadOf_get, List.getD_eq_getElem _ _ hk]
    · rw [payloadOf_get, List.getD_eq_default _ _ hk]

theorem payloadAt_iff_digits (cs : List Byte) (n : Nat) (d : Payload) :
    PayloadAt cs n d ↔
      (∀ k : Fin 8, k.val < n → ∃ d1 d0 : BitVec 4,
        digitAt cs (12 + 3 * k.val) = some d1 ∧ digitAt cs (13 + 3 * k.val) = some d0 ∧
        d[k].toNat = d1.toNat * 16 + d0.toNat) ∧
      ∀ k : Fin 8, n ≤ k.val → d[k] = 0 := by
  have next_position (k : Fin 8) : 12 + 3 * k.val + 1 = 13 + 3 * k.val := by omega
  simp only [PayloadAt, byteAt_eq_some_iff_digits, next_position]

/-! ### DecodeText -/

/-- What R164 asks of the string and says of each field, with the digits still read in groups. -/
theorem decodeText_iff_fields (cs : List Byte) (m : Message) : decodeText cs = some m ↔
    11 ≤ cs.length ∧ WordAt cs 0 m.hash ∧ byteAt cs 7 = some m.cmd ∧ digitAt cs 10 = some m.len ∧ m.len ≤ 8 ∧
    11 + 3 * m.len.toNat ≤ cs.length ∧ m.prio = 0 ∧ (m.resp = true ↔ cs[5]? = some 0x52) ∧
    PayloadAt cs m.len.toNat m.data := by
  obtain ⟨prio, cmd, resp, hash, len, data⟩ := m
  have resp_iff : resp = (cs[5]? == some 0x52) ↔ (resp = true ↔ cs[5]? = some 0x52) :=
    Bool.eq_iff_iff.trans (iff_congr .rfl beq_iff_eq)
  simp only [decodeText_eq_some, Message.mk.injEq, WordAt, resp_iff]
  constructor
  · rintro ⟨hheader, hi, lo, c, bs, hhi, hlo, hc, hlen, hle, hlength, hbs, rfl, rfl, hresp, rfl, -, hdata⟩
    exact ⟨hheader, ⟨hi, lo, hhi, hlo, rfl⟩, hc, hlen, hle, hlength, rfl, hresp,
      (payloadAt_iff cs _ hle data).mpr ⟨bs, hbs, hdata⟩⟩
  · rintro ⟨hheader, ⟨hi, lo, hhi, hlo, hhash⟩, hc, hlen, hle, hlength, hprio, hresp, hpayload⟩
    obtain ⟨bs, hbs, hdata⟩ := (payloadAt_iff cs _ hle data).mp hpayload
    exact ⟨hheader, hi, lo, cmd, bs, hhi, hlo, hc, hlen, hle, hlength, hbs, hprio, rfl, hresp, hhash, trivial, hdata⟩

/-- The digits of the header, read as two numbers. -/
theorem header_iff_digits (cs : List Byte) (hash : BitVec 16) (cmd : Byte) :
    WordAt cs 0 hash ∧ byteAt cs 7 = some cmd ↔ ∃ h3 h2 h1 h0 c1 c0 : BitVec 4,
      digitAt cs 0 = some h3 ∧ digitAt cs 1 = some h2 ∧ digitAt cs 2 = some h1 ∧ digitAt cs 3 = some h0 ∧
      digitAt cs 7 = some c1 ∧ digitAt cs 8 = some c0 ∧
      hash.toNat = h3.toNat * 4096 + h2.toNat * 256 + h1.toNat * 16 + h0.toNat ∧
      cmd.toNat = c1.toNat * 16 + c0.toNat := by
  rw [wordAt_iff_digits, byteAt_eq_some_iff_digits]
  constructor
  · rintro ⟨⟨h3, h2, h1, h0, e3, e2, e1, e0, hhash⟩, c1, c0, f1, f0, hcmd⟩
    exact ⟨h3, h2, h1, h0, c1, c0, e3, e2, e1, e0, f1, f0, hhash, hcmd⟩
  · rintro ⟨h3, h2, h1, h0, c1, c0, e3, e2, e1, e0, f1, f0, hhash, hcmd⟩
    exact ⟨⟨h3, h2, h1, h0, e3, e2, e1, e0, hhash⟩, c1, c0, f1, f0, hcmd⟩

/-- Settles O13: the fields of `decodeText_iff_fields` with the header and the payload spelled out in digits. -/
theorem textDecodesExactlyByPosition : Obligations.TextDecodesExactlyByPosition := by
  intro cs m
  rw [decodeText_iff_fields, payloadAt_iff_digits, ← and_assoc (a := WordAt cs 0 m.hash), header_iff_digits]
  rfl

end Sys2Proof.Machine
end

section
/-!
PROOFS. The text operations: the command words of `TXENC`, `TXDEC`, `LDT`, `RDT` and `SETTL` (30_encoding.md R65, R70,
R74) and their effects (44_text_codec.md R162, R165 to R170).
-/

namespace Sys2Proof

/-! ### Command words -/

theorem decodeCommand_txenc (a : MReg) : decodeCommand (cwWord 0x10 (mregBit a) 0 0 0) = .ok (.txenc a) :=
  decodeCommand_onRegister 14 rfl (by decide) a

theorem decodeCommand_txdec (a : MReg) : decodeCommand (cwWord 0x11 (mregBit a) 0 0 0) = .ok (.txdec a) :=
  decodeCommand_onRegister 15 rfl (by decide) a

/-- A mask whose upper half is all ones looks at every bit above the immediate. -/
theorem cwWord_and_immMask (op : BitVec 5) (imm mimm : BitVec 16) :
    cwWord op 0 0 0 imm &&& (0xFFFF#16 ++ mimm) = cwWord op 0 0 0 (imm &&& mimm) := by
  have op_kept : op &&& 31#5 = op := BitVec.and_allOnes
  exact (cwWord_and op 31 0 1 0 1 0 31 15 imm mimm).trans (by simp [op_kept])

theorem decodeCommand_ldt (idx : BitVec 6) (ch : Byte) :
    decodeCommand (cwWord 0x12 0 0 0 ((0 : BitVec 2) ++ idx ++ ch)) = .ok (.ldt idx ch) := by
  have unused_zero : ((0 : BitVec 2) ++ idx ++ ch) &&& ((3 : BitVec 2) ++ (0 : BitVec 6) ++ (0 : Byte)) = 0 := by
    rw [BitVec.and_append, BitVec.and_append]
    simp
  have hmatch : cwWord 0x12 0 0 0 ((0 : BitVec 2) ++ idx ++ ch) &&& 0xFFFFC000 = 0x90000000 :=
    (cwWord_and_immMask 0x12 _ _).trans (by rw [unused_zero])
  rw [decodeCommand_row (cwWord_op _ _ _ _ _) 16 rfl (by decide) hmatch]
  simp [cwIdx_eq, cwCh_eq, cwImm_cwWord, extract_mid6, extract_low8]

theorem decodeCommand_rdt (idx : BitVec 6) :
    decodeCommand (cwWord 0x13 0 0 0 ((0 : BitVec 2) ++ idx ++ (0 : Byte))) = .ok (.rdt idx) := by
  have unused_zero :
      ((0 : BitVec 2) ++ idx ++ (0 : Byte)) &&& ((3 : BitVec 2) ++ (0 : BitVec 6) ++ (0xFF : Byte)) = 0 := by
    rw [BitVec.and_append, BitVec.and_append]
    simp
  have hmatch : cwWord 0x13 0 0 0 ((0 : BitVec 2) ++ idx ++ (0 : Byte)) &&& 0xFFFFC0FF = 0x98000000 :=
    (cwWord_and_immMask 0x13 _ _).trans (by rw [unused_zero])
  rw [decodeCommand_row (cwWord_op _ _ _ _ _) 17 rfl (by decide) hmatch]
  simp [cwIdx_eq, cwImm_cwWord, extract_mid6]

theorem decodeCommand_settl (n : BitVec 6) :
    decodeCommand (cwWord 0x14 0 0 0 (n.zeroExtend 16)) = .ok (.settl n) := by
  have unused_zero : n.zeroExtend 16 &&& 0xFFC0 = 0 := by
    revert n
    decide
  have hmatch : cwWord 0x14 0 0 0 (n.zeroExtend 16) &&& 0xFFFFFFC0 = 0xA0000000 :=
    (cwWord_and_immMask 0x14 _ _).trans (by rw [unused_zero])
  rw [decodeCommand_row (cwWord_op _ _ _ _ _) 18 rfl (by decide) hmatch]
  simp [cwLow6_eq, cwImm_cwWord, extract_low6]

/-- The immediate that names a text position and a character (R65), as shifts. -/
theorem textImm_eq_or (idx : BitVec 6) (ch : Byte) :
    ((0 : BitVec 2) ++ idx ++ ch).setWidth 32 = idx.setWidth 32 <<< 8 ||| ch.setWidth 32 := by
  rw [BitVec.setWidth_append_append_eq_shiftLeft_setWidth_or]
  simp

theorem commandIs_txenc (a : MReg) : CommandIs (.txenc a) (0x80000000 ||| aField a) :=
  commandIs_of_decode rfl (by simp [cwWord_eq_or, aField]) (decodeCommand_txenc a)

theorem commandIs_txdec (a : MReg) : CommandIs (.txdec a) (0x88000000 ||| aField a) :=
  commandIs_of_decode rfl (by simp [cwWord_eq_or, aField]) (decodeCommand_txdec a)

theorem commandIs_ldt (idx : BitVec 6) (ch : Byte) :
    CommandIs (.ldt idx ch) (0x90000000 ||| idx.zeroExtend 32 <<< 8 ||| ch.zeroExtend 32) :=
  commandIs_of_decode rfl (by rw [cwWord_eq_or, textImm_eq_or]; simp [BitVec.or_assoc]) (decodeCommand_ldt idx ch)

theorem commandIs_rdt (idx : BitVec 6) : CommandIs (.rdt idx) (0x98000000 ||| idx.zeroExtend 32 <<< 8) :=
  commandIs_of_decode rfl (by rw [cwWord_eq_or, textImm_eq_or]; simp) (decodeCommand_rdt idx)

theorem commandIs_settl (n : BitVec 6) : CommandIs (.settl n) (0xA0000000 ||| n.zeroExtend 32) :=
  commandIs_of_decode rfl (by simp [cwWord_eq_or]) (decodeCommand_settl n)

namespace Machine

/-! ### TXENC -/

theorem exec_txenc (a : MReg) (s : State) : exec (.txenc a) s =
    .next ({ s with txt := storeText (encodeText (s.msg a)) s.txt,
                    txtlen := BitVec.ofNat 6 (encodeText (s.msg a)).length }.respond true 0
      (BitVec.ofNat 32 (encodeText (s.msg a)).length)) := rfl

theorem storeText_get (cs : List Byte) (t : TextBuf) (i : Fin 35) : (storeText cs t)[i] = cs.getD i.val t[i] := by
  simp [storeText]

/-- A string lands at the front of the buffer. -/
theorem storeText_front (cs : List Byte) (t : TextBuf) (i : Fin 35) (hi : i.val < cs.length) :
    some (storeText cs t)[i] = cs[i.val]? := by
  rw [storeText_get, List.getD_eq_getElem _ _ hi, List.getElem?_eq_getElem hi]

/-- The bytes behind the string stay (R162). -/
theorem storeText_behind (cs : List Byte) (t : TextBuf) (i : Fin 35) (hi : cs.length ≤ i.val) :
    (storeText cs t)[i] = t[i] := by
  rw [storeText_get, List.getD_eq_default _ _ hi]

/-- Settles O37: the buffer is the one of `storeText`, and its string has the length of the text form. -/
theorem txencWritesTheTextForm : Obligations.TxencWritesTheTextForm := by
  refine ⟨commandIs_txenc, fun a s hlen => ?_⟩
  have hlength := encodeText_length (s.msg a) hlen
  have hle : (s.msg a).len.toNat ≤ 8 := hlen
  refine ⟨storeText (encodeText (s.msg a)) s.txt, ?_, ?_, fun i hi => ?_, fun i hi => ?_⟩
  · rw [exec_txenc, hlength]
  · rw [BitVec.toNat_ofNat]
    omega
  · exact storeText_front _ _ i (hlength ▸ hi)
  · exact storeText_behind _ _ i (hlength ▸ hi)

/-! ### TXDEC -/

theorem exec_txdec (a : MReg) (s : State) :
    exec (.txdec a) s = .next (txdecAnswered a (decodeText s.text) s) := rfl

theorem txdecAnswered_some (a : MReg) (m : Message) (s : State) :
    txdecAnswered a (some m) s = (s.setMsg a m).respond true 0 0 := rfl

theorem txdecAnswered_none (a : MReg) (s : State) :
    txdecAnswered a none s = ((s.setMsg a Message.cleared).raise .decodeFailure).respond false 3 0 := rfl

/-- Settles O38: the two answers of the decoder are the two cases of `txdecAnswered`. -/
theorem txdecWritesOrClears : Obligations.TxdecWritesOrClears := by
  intro a s string
  have hexec : exec (.txdec a) s = .next (txdecAnswered a (decodeText string) s) := exec_txdec a s
  refine ⟨commandIs_txdec a, fun m hsome => ?_, fun hnone => ?_⟩
  · rw [hexec, hsome, txdecAnswered_some]
  · rw [hexec, hnone, txdecAnswered_none, Message.cleared]

/-! ### LDT, RDT and SETTL -/

theorem exec_ldt (idx : BitVec 6) (ch : Byte) (s : State) :
    exec (.ldt idx ch) s = .next (loadChar idx ch s) := rfl

theorem exec_rdt (idx : BitVec 6) (s : State) : exec (.rdt idx) s = .next (readChar idx s) := rfl

theorem exec_settl (n : BitVec 6) (s : State) : exec (.settl n) s = .next (setTextLen n s) := rfl

theorem loadChar_inside (idx : BitVec 6) (ch : Byte) (s : State) (h : idx.toNat < 35) :
    loadChar idx ch s = { s with txt := s.txt.set idx.toNat ch }.respond true 0 0 := by
  rw [loadChar, textPos_some idx h]

theorem loadChar_outside (idx : BitVec 6) (ch : Byte) (s : State) (h : 34 < idx.toNat) :
    loadChar idx ch s = s.refuse .badArgument := by
  rw [loadChar, textPos_none idx h]

theorem readChar_inside (idx : BitVec 6) (s : State) (h : idx.toNat < 35) :
    readChar idx s = s.respond true 0 (s.txt[idx.toNat].zeroExtend 32) := by
  rw [readChar, textPos_some idx h]
  rfl

theorem readChar_outside (idx : BitVec 6) (s : State) (h : 34 < idx.toNat) :
    readChar idx s = s.refuse .badArgument := by
  rw [readChar, textPos_none idx h]

theorem setTextLen_fits (n : BitVec 6) (s : State) (h : n.toNat ≤ 35) :
    setTextLen n s = { s with txtlen := n }.respond true 0 0 :=
  if_neg (Nat.not_lt.mpr h)

theorem setTextLen_over (n : BitVec 6) (s : State) (h : 35 < n.toNat) : setTextLen n s = s.refuse .badArgument :=
  if_pos h

/-- Settles O39: a position or length in range is a case of `loadChar`, `readChar` and `setTextLen`, one out of range
the other. -/
theorem textBufferIsMovedByCharacter : Obligations.TextBufferIsMovedByCharacter := by
  refine ⟨fun idx ch s => ⟨commandIs_ldt idx ch, fun hin => ?_, fun hout => ?_⟩,
    fun idx s => ⟨commandIs_rdt idx, fun hin => ?_, fun hout => ?_⟩,
    fun n s => ⟨commandIs_settl n, fun hfits => ?_, fun hover => ?_⟩⟩
  · rw [exec_ldt, loadChar_inside idx ch s hin]
  · rw [exec_ldt, loadChar_outside idx ch s hout]
  · rw [exec_rdt, readChar_inside idx s hin]
  · rw [exec_rdt, readChar_outside idx s hout]
  · rw [exec_settl, setTextLen_fits n s hfits]
  · rw [exec_settl, setTextLen_over n s hover]

end Machine

end Sys2Proof
end

section
/-!
PROOFS. The system operations: the command words of `NOP`, `ACTIVATE`, `SETHASH`, `SETTMO`, `SETCFG`, `RDSR` and
`CLRERR` (30_encoding.md R70, R74) and their effects (45_system_ops.md R180 to R188).
-/

namespace Sys2Proof

/-! ### Command words -/

theorem decodeCommand_nop : decodeCommand (cwWord 0x00 0 0 0 0) = .ok .nop :=
  decodeCommand_row (cwWord_op _ _ _ _ _) 0 rfl (by decide) (by decide)

theorem decodeCommand_activate : decodeCommand (cwWord 0x08 0 0 0 0) = .ok .activate :=
  decodeCommand_row (cwWord_op _ _ _ _ _) 8 rfl (by decide) (by decide)

/-- A row of R74 whose mask leaves out bits of the immediate alone decodes each word of its operation code with the
unused bits of the immediate clear. -/
theorem decodeCommand_onImmediate {op : BitVec 5} (unused : BitVec 16) {build : CommandWord → Instr} (k : Nat)
    (hrow : cwRows[k]? = some ⟨0xFFFF#16 ++ unused, cwWord op 0 0 0 0, build⟩)
    (hbefore : ∀ q ∈ cwRows.take k, q.pattern.extractLsb' 27 5 ≠ op) {imm : BitVec 16}
    (hclear : imm &&& unused = 0) : decodeCommand (cwWord op 0 0 0 imm) = .ok (build (cwWord op 0 0 0 imm)) :=
  decodeCommand_row (cwWord_op _ _ _ _ _) k hrow hbefore ((cwWord_and_immMask op imm unused).trans (by rw [hclear]))

theorem decodeCommand_sethash (imm : BitVec 16) : decodeCommand (cwWord 0x09 0 0 0 imm) = .ok (.sethash imm) := by
  rw [decodeCommand_onImmediate 0 9 rfl (by decide) BitVec.and_zero, cwImm_cwWord]

theorem decodeCommand_settmo (imm : BitVec 16) : decodeCommand (cwWord 0x0A 0 0 0 imm) = .ok (.settmo imm) := by
  rw [decodeCommand_onImmediate 0 10 rfl (by decide) BitVec.and_zero, cwImm_cwWord]

theorem decodeCommand_setcfg (cfg : BitVec 3) :
    decodeCommand (cwWord 0x0B 0 0 0 (cfg.zeroExtend 16)) = .ok (.setcfg cfg) := by
  have hclear : cfg.zeroExtend 16 &&& 0xFFF8 = 0 := by
    revert cfg
    decide
  rw [decodeCommand_onImmediate 0xFFF8 11 rfl (by decide) hclear]
  simp [cwCfg_eq, cwImm_cwWord, extract_low3]

theorem decodeCommand_rdsr (sel : BitVec 5) : decodeCommand (cwWord 0x0C 0 0 sel 0) = .ok (.rdsr sel) := by
  have hmatch : cwWord 0x0C 0 0 sel 0 &&& 0xFE0FFFFF = 0x60000000 :=
    (cwWord_and 0x0C 31 0 1 0 1 sel 0 15 0 0xFFFF).trans (by simp [cwWord])
  rw [decodeCommand_row (cwWord_op _ _ _ _ _) 12 rfl (by decide) hmatch]
  simp [cwSel_cwWord]

theorem decodeCommand_clrerr (mask : BitVec 6) :
    decodeCommand (cwWord 0x0D 0 0 0 (mask.zeroExtend 16)) = .ok (.clrerr mask) := by
  have hclear : mask.zeroExtend 16 &&& 0xFFC0 = 0 := by
    revert mask
    decide
  rw [decodeCommand_onImmediate 0xFFC0 13 rfl (by decide) hclear]
  simp [cwLow6_eq, cwImm_cwWord, extract_low6]

theorem commandIs_nop : CommandIs .nop 0x00000000 :=
  commandIs_of_decode rfl (by decide) decodeCommand_nop

theorem commandIs_activate : CommandIs .activate 0x40000000 :=
  commandIs_of_decode rfl (by decide) decodeCommand_activate

theorem commandIs_sethash (imm : BitVec 16) : CommandIs (.sethash imm) (0x48000000 ||| imm.zeroExtend 32) :=
  commandIs_of_decode rfl (by simp [cwWord_eq_or]) (decodeCommand_sethash imm)

theorem commandIs_settmo (imm : BitVec 16) : CommandIs (.settmo imm) (0x50000000 ||| imm.zeroExtend 32) :=
  commandIs_of_decode rfl (by simp [cwWord_eq_or]) (decodeCommand_settmo imm)

theorem commandIs_setcfg (cfg : BitVec 3) : CommandIs (.setcfg cfg) (0x58000000 ||| cfg.zeroExtend 32) :=
  commandIs_of_decode rfl (by simp [cwWord_eq_or]) (decodeCommand_setcfg cfg)

theorem commandIs_rdsr (sel : BitVec 5) : CommandIs (.rdsr sel) (0x60000000 ||| selField sel) :=
  commandIs_of_decode rfl (by simp [cwWord_eq_or, selField]) (decodeCommand_rdsr sel)

theorem commandIs_clrerr (mask : BitVec 6) : CommandIs (.clrerr mask) (0x68000000 ||| mask.zeroExtend 32) :=
  commandIs_of_decode rfl (by simp [cwWord_eq_or]) (decodeCommand_clrerr mask)

namespace Machine

/-! ### NOP, SETTMO, SETCFG and CLRERR -/

theorem exec_nop (s : State) : exec .nop s = .next (s.respond true 0 0) := rfl

theorem exec_settmo (imm : BitVec 16) (s : State) :
    exec (.settmo imm) s = .next ({ s with timeout := imm }.respond true 0 0) := rfl

theorem exec_setcfg (cfg : BitVec 3) (s : State) :
    exec (.setcfg cfg) s = .next ({ s with cfg := cfg }.respond true 0 0) := rfl

theorem exec_clrerr (mask : BitVec 6) (s : State) :
    exec (.clrerr mask) s = .next ({ s with err := errCleared s.err mask }.respond true 0 0) := rfl

/-- At every position, also above the six bits of `ERR`. -/
theorem errCleared_getLsbD (err mask : BitVec 6) (i : Nat) :
    (errCleared err mask).getLsbD i = (err.getLsbD i && !mask.getLsbD i) := by
  rw [errCleared, BitVec.getLsbD_and, BitVec.getLsbD_not]
  by_cases hi : i < 6
  · simp [hi]
  · simp [BitVec.getLsbD_of_ge err i (Nat.not_lt.mp hi)]

/-- Settles O40: the register that `CLRERR` writes is the one of `errCleared`, known bit by bit. -/
theorem systemOpsWriteTheirOneRegister : Obligations.SystemOpsWriteTheirOneRegister := fun s =>
  ⟨commandIs_nop, exec_nop s,
    fun imm => ⟨commandIs_settmo imm, exec_settmo imm s⟩,
    fun cfg => ⟨commandIs_setcfg cfg, exec_setcfg cfg s⟩,
    fun mask => ⟨commandIs_clrerr mask, errCleared s.err mask, exec_clrerr mask s, errCleared_getLsbD s.err mask⟩⟩

/-! ### ACTIVATE -/

theorem exec_activate (s : State) : exec .activate s = .next (activated { s with active := true, xerr := 0 }) := rfl

theorem activated_unidentified (s : State) (h : s.hash = 0) : activated s = s.setPhase .ngDraw := if_pos h

theorem activated_identified (s : State) (h : s.hash ≠ 0) :
    activated s = s.respond true 0 (s.hash.zeroExtend 32) := if_neg h

/-- Settles O41: `HASH`, which setting `ACTIVE` and `XERR` leaves alone, chooses between the two cases of
`activated`. -/
theorem activateNegotiatesOnlyWithoutHash : Obligations.ActivateNegotiatesOnlyWithoutHash := by
  refine ⟨commandIs_activate, fun s => ⟨fun hzero => ?_, fun hnonzero => ?_⟩⟩
  · rw [exec_activate, activated_unidentified { s with active := true, xerr := 0 } hzero, State.setPhase]
  · rw [exec_activate, activated_identified { s with active := true, xerr := 0 } hnonzero]

/-! ### SETHASH -/

theorem exec_sethash (imm : BitVec 16) (s : State) : exec (.sethash imm) s = .next (assignHash imm s) := rfl

theorem assignHash_inactive (imm : BitVec 16) (s : State) (h : s.active = false) :
    assignHash imm s = { s with hash := imm }.respond true 0 0 :=
  if_neg (by simp [h])

theorem assignHash_active (imm : BitVec 16) (s : State) (h : s.active = true) :
    assignHash imm s = s.refuse .badState :=
  if_pos h

/-- Settles O42: `ACTIVE` chooses between the two cases of `assignHash`, neither of which looks at the value. -/
theorem sethashOnlyDuringConstruction : Obligations.SethashOnlyDuringConstruction := by
  refine fun imm s => ⟨commandIs_sethash imm, fun hinactive => ?_, fun hactive => ?_⟩
  · rw [exec_sethash, assignHash_inactive imm s hinactive]
  · rw [exec_sethash, assignHash_active imm s hactive]

/-! ### RDSR -/

theorem exec_rdsr (sel : BitVec 5) (s : State) : exec (.rdsr sel) s = .next (readSysReg sel s) := rfl

theorem exec_rdsr_answers {sel : BitVec 5} {r : SysReg} (hr : sysRegOf sel = some r) (s : State) :
    exec (.rdsr sel) s = .next (s.respond true 0 (r.read s)) := by
  rw [exec_rdsr, readSysReg, hr]

theorem exec_rdsr_refuses {sel : BitVec 5} (hr : sysRegOf sel = none) (s : State) :
    exec (.rdsr sel) s = .next (s.refuse .badArgument) := by
  rw [exec_rdsr, readSysReg, hr]

/-- Settles O43, register by register: the number names the register, `SysReg.read` is the answer. -/
theorem rdsrAnswersTheRegister : Obligations.RdsrAnswersTheRegister := by
  intro sel s
  refine ⟨commandIs_rdsr sel, ?hash, ?timeout, ?cfg, ?status, ?err, ?txtlen, ?unnamed⟩
  case hash => exact fun h => exec_rdsr_answers (r := .hash) (congrArg sysRegOf h) s
  case timeout => exact fun h => exec_rdsr_answers (r := .timeout) (congrArg sysRegOf h) s
  case cfg => exact fun h => exec_rdsr_answers (r := .cfg) (congrArg sysRegOf h) s
  case status => exact fun h => exec_rdsr_answers (r := .status) (congrArg sysRegOf h) s
  case err => exact fun h => exec_rdsr_answers (r := .err) (congrArg sysRegOf h) s
  case txtlen => exact fun h => exec_rdsr_answers (r := .txtlen) (congrArg sysRegOf h) s
  case unnamed => exact fun h => exec_rdsr_refuses (sysRegOf_none_of_unnamed sel h) s

end Machine

end Sys2Proof
end

section
/-!
PROOFS. The illegal command word: which words match no row of the table (30_encoding.md R74, R75), and what the step
that takes such a word does (60_exceptions.md R223).
-/

namespace Sys2Proof

/-! ### Words that match no row -/

theorem row_patterns_op_listed : ∀ r ∈ cwRows,
    r.pattern.extractLsb' 27 5 ≠ 0x0E ∧ r.pattern.extractLsb' 27 5 ≠ 0x0F ∧ r.pattern.extractLsb' 27 5 < 0x15 := by
  decide

/-- A row's mask covers the operation code, so a word that matches it has an operation code of the table. -/
theorem op_listed_of_match {w : CommandWord} {r : CwRow} (hrow : r ∈ cwRows) (hmatch : w &&& r.mask = r.pattern) :
    w.extractLsb' 27 5 ≠ 0x0E ∧ w.extractLsb' 27 5 ≠ 0x0F ∧ w.extractLsb' 27 5 < 0x15 := by
  have hop : w.extractLsb' 27 5 = r.pattern.extractLsb' 27 5 := op_of_match (row_masks_hold_op r hrow) hmatch
  rw [hop]
  exact row_patterns_op_listed r hrow

theorem no_row_of_unlisted_op {w : CommandWord}
    (hop : w.extractLsb' 27 5 = 0x0E ∨ w.extractLsb' 27 5 = 0x0F ∨ 0x15 ≤ w.extractLsb' 27 5) :
    ∀ r ∈ cwRows, w &&& r.mask ≠ r.pattern := by
  intro r hrow hmatch
  obtain ⟨hne_first, hne_second, hbelow⟩ := op_listed_of_match hrow hmatch
  rcases hop with hfirst | hsecond | habove
  · exact hne_first hfirst
  · exact hne_second hsecond
  · exact absurd hbelow (BitVec.not_lt.mpr habove)

namespace Machine

/-! ### The step that takes such a word -/

theorem takeWord_illegal {w : CommandWord} {x : DecodeError} (hdecode : decode (.command w) = .error x) (s : State) :
    takeWord w s = .next (s.refuse .illegalCommand) := by
  simp only [takeWord, hdecode]

theorem idleTurn_takes {e : State} {w : CommandWord} {ws : List CommandWord} (hport : e.env.port = w :: ws) :
    idleTurn e = takeWord w (e.setPort ws) := by
  simp only [idleTurn, hport]

/-- An idle block whose turn it is takes the first word at its port. -/
theorem step_takes {s e : State} {w : CommandWord} {ws : List CommandWord} (hmoves : s.EngineMoves e)
    (hidle : s.phase = .idle) (hport : s.env.port = w :: ws) : step s = takeWord w (e.setPort ws) := by
  have hnot_halted : s.phase ≠ .halted := by simp [hidle]
  have hport_e : e.env.port = w :: ws := by
    obtain ⟨ts, rfl⟩ := hmoves.eq_setTurns
    exact hport
  rw [step_engine hmoves hnot_halted, engineTurn_idle (hmoves.phase_eq.trans hidle), idleTurn_takes hport_e]

theorem State.EngineMoves.err_eq {s e : State} (h : s.EngineMoves e) : e.err = s.err := by
  obtain ⟨ts, rfl⟩ := h.eq_setTurns
  rfl

/-- `E_ILLEGAL` is bit 3 of `ERR`, and its code is 4 (R220). -/
theorem State.refuse_illegalCommand (s : State) :
    s.refuse .illegalCommand = { s with err := s.err ||| 8 }.respond false 4 0 := rfl

/-- Settles O48: the decoder finds no row, so the word taken is refused; and the operation code of a row is never one
of the unlisted ones. -/
theorem unmatchedWordsAreIllegal : Obligations.UnmatchedWordsAreIllegal := by
  refine ⟨fun s e w ws hmoves hidle hport hunmatched => ?_, fun w => no_row_of_unlisted_op⟩
  have hdecode : decode (.command w) = .error .illegalCommand := decodeCommand_error hunmatched
  rw [step_takes hmoves hidle hport, takeWord_illegal hdecode, State.refuse_illegalCommand, ← hmoves.err_eq]
  rfl

end Machine

end Sys2Proof
end

section
/-!
PROOFS. The decoder and the encoder are inverse to each other (30_encoding.md R70, R74, R77): every instruction is
decoded from its encoding, and every word or frame that decodes is an encoding.
-/

namespace Sys2Proof

/-! ### Frames -/

theorem idCmd_busFrame (c : Byte) (g : BusArgs) : idCmd (busFrame c g).id = c := idCmd_packIdWith _ _ _ _ _

/-- The table of R77 as `busRows` lists it is the one the decoder reads. -/
theorem decodeBus_busFrame {g : BusArgs} {i : Instr} {c : Byte} (hrow : (i, c) ∈ busRows g) :
    decodeBus (busFrame c g) = .ok i := by
  have every_row : ∀ p ∈ busRows g, decodeBus (busFrame p.2 g) = .ok p.1 := by
    simp only [busRows, List.forall_mem_cons, decodeBus, busArgsOf_busFrame, idCmd_busFrame]
    exact ⟨rfl, rfl, rfl, rfl, rfl, rfl, rfl, rfl, nofun⟩
  exact every_row (i, c) hrow

/-- A frame that decodes carries the code of its row and the operands the decoder found. -/
theorem encode_of_decodeBus {f : Frame} {i : Instr} (h : decodeBus f = .ok i) : encode i = .frame f := by
  unfold decodeBus at h
  split at h <;> rename_i hcode <;> cases h <;>
    exact congrArg Wire.frame (Machine.busFrame_of_code hcode)

/-! ### Every instruction is decoded from its encoding -/

/-- Settles O1, instruction by instruction: a command word by its row of R74, a frame by its row of R77. -/
theorem decodeOfEncodeIsTheInstruction : Obligations.DecodeOfEncodeIsTheInstruction := by
  intro i
  cases i with
  | nop => exact decodeCommand_nop
  | clear a => exact decodeCommand_clear a
  | ldf a sel imm => exact decodeCommand_ldf a sel imm
  | rdf a sel => exact decodeCommand_rdf a sel
  | send a => exact decodeCommand_send a
  | recv a => exact decodeCommand_recv a
  | exch a b => exact decodeCommand_exch a b
  | negotiate => exact decodeCommand_negotiate
  | activate => exact decodeCommand_activate
  | sethash imm => exact decodeCommand_sethash imm
  | settmo imm => exact decodeCommand_settmo imm
  | setcfg cfg => exact decodeCommand_setcfg cfg
  | rdsr sel => exact decodeCommand_rdsr sel
  | clrerr mask => exact decodeCommand_clrerr mask
  | txenc a => exact decodeCommand_txenc a
  | txdec a => exact decodeCommand_txdec a
  | ldt idx ch => exact decodeCommand_ldt idx ch
  | rdt idx => exact decodeCommand_rdt idx
  | settl n => exact decodeCommand_settl n
  | busSystem g => exact decodeBus_busFrame (by simp [busRows])
  | busSpeed g => exact decodeBus_busFrame (by simp [busRows])
  | busDirection g => exact decodeBus_busFrame (by simp [busRows])
  | busFunction g => exact decodeBus_busFrame (by simp [busRows])
  | busReadConfig g => exact decodeBus_busFrame (by simp [busRows])
  | busWriteConfig g => exact decodeBus_busFrame (by simp [busRows])
  | busAccessory g => exact decodeBus_busFrame (by simp [busRows])
  | busPing g => exact decodeBus_busFrame (by simp [busRows])

/-! ### Every word of a row is an encoding -/

/-- A command word is its six fields (R70). -/
theorem eq_append_fields (w : CommandWord) : w = w.extractLsb' 27 5 ++ w.extractLsb' 26 1 ++ w.extractLsb' 25 1 ++
    w.extractLsb' 20 5 ++ w.extractLsb' 16 4 ++ w.extractLsb' 0 16 := by
  apply BitVec.eq_of_getLsbD_eq
  intro i hi
  simp only [BitVec.getLsbD_append, BitVec.getLsbD_extractLsb']
  interval_cases i <;> simp

theorem append_inj {m n : Nat} {x x' : BitVec m} {y y' : BitVec n} (h : x ++ y = x' ++ y') : x = x' ∧ y = y' := by
  constructor
  · simpa only [BitVec.extractLsb'_append_eq_left] using congrArg (BitVec.extractLsb' n m) h
  · simpa only [BitVec.extractLsb'_append_eq_right] using congrArg (BitVec.extractLsb' 0 n) h

theorem eq_of_and_allOnes {n : Nat} {x y : BitVec n} (h : x &&& BitVec.allOnes n = y) : x = y := by
  rwa [BitVec.and_allOnes] at h

/-- The rows' masks cover the operation code and the reserved bits, and their patterns hold the operation code alone:
a word that matches is made of four fields, each zero where the mask covers it. -/
theorem cwWord_of_match {w : CommandWord} {op : BitVec 5} {ma mb : BitVec 1} {msel : BitVec 5} {mimm : BitVec 16}
    (h : w &&& (31#5 ++ ma ++ mb ++ msel ++ 15#4 ++ mimm) = cwWord op 0 0 0 0) :
    ∃ (a b : BitVec 1) (sel : BitVec 5) (imm : BitVec 16), w = cwWord op a b sel imm ∧
      a &&& ma = 0 ∧ b &&& mb = 0 ∧ sel &&& msel = 0 ∧ imm &&& mimm = 0 := by
  have hw := eq_append_fields w
  generalize w.extractLsb' 27 5 = op', w.extractLsb' 26 1 = a, w.extractLsb' 25 1 = b, w.extractLsb' 20 5 = sel,
    w.extractLsb' 16 4 = rsv, w.extractLsb' 0 16 = imm at hw
  subst hw
  rw [cwWord, BitVec.and_append, BitVec.and_append, BitVec.and_append, BitVec.and_append, BitVec.and_append] at h
  obtain ⟨h, himm⟩ := append_inj h
  obtain ⟨h, hrsv⟩ := append_inj h
  obtain ⟨h, hsel⟩ := append_inj h
  obtain ⟨h, hb⟩ := append_inj h
  obtain ⟨hop, ha⟩ := append_inj h
  have hop' : op' = op := eq_of_and_allOnes hop
  have hrsv' : rsv = 0 := eq_of_and_allOnes hrsv
  subst hop' hrsv'
  exact ⟨a, b, sel, imm, rfl, ha, hb, hsel, himm⟩

theorem exists_mregBit (a : BitVec 1) : ∃ r, mregBit r = a := by
  rcases BitVec.eq_zero_or_eq_one a with rfl | rfl
  · exact ⟨.m0, rfl⟩
  · exact ⟨.m1, rfl⟩

/-- An immediate that is zero under a mask of all bits from `k` on is its low `k` bits. -/
theorem exists_zeroExtend {imm mask : BitVec 16} (k : Nat) (hmask : ∀ i : Fin 16, k ≤ i.val → mask.getLsbD i = true)
    (h : imm &&& mask = 0) : ∃ v : BitVec k, v.zeroExtend 16 = imm := by
  refine ⟨imm.setWidth k, BitVec.eq_of_getLsbD_eq fun i hi => ?_⟩
  by_cases hik : i < k
  · simp [hi, hik]
  · have hbit : (imm &&& mask).getLsbD i = false := by rw [h]; exact BitVec.getLsbD_zero
    rw [BitVec.getLsbD_and, hmask ⟨i, hi⟩ (Nat.le_of_not_lt hik), Bool.and_true] at hbit
    simp [hik, hbit]

/-- Every word that matches a row is the encoding of an instruction. -/
def CwRow.IsEncoded (r : CwRow) : Prop :=
  ∀ w : CommandWord, w &&& r.mask = r.pattern → ∃ i, encode i = .command w

/-- Rows without a free bit. -/
theorem isEncoded_plain {op : BitVec 5} {i : Instr} {build : CommandWord → Instr}
    (henc : encode i = .command (cwWord op 0 0 0 0)) :
    CwRow.IsEncoded ⟨0xFFFFFFFF, cwWord op 0 0 0 0, build⟩ := by
  intro w (h : w &&& 0xFFFFFFFF = cwWord op 0 0 0 0)
  exact ⟨i, by rw [henc, eq_of_and_allOnes h]⟩

/-- Rows whose free bits are among those of `a` and `b`. -/
theorem isEncoded_onRegisters (op : BitVec 5) (mb : BitVec 1) {build : CommandWord → Instr}
    (henc : ∀ a b, mregBit b &&& mb = 0 → ∃ i, encode i = .command (cwWord op (mregBit a) (mregBit b) 0 0)) :
    CwRow.IsEncoded ⟨31#5 ++ 0#1 ++ mb ++ 31#5 ++ 15#4 ++ 0xFFFF#16, cwWord op 0 0 0 0, build⟩ := by
  intro w h
  obtain ⟨a, b, sel, imm, rfl, -, hb, hsel, himm⟩ := cwWord_of_match h
  obtain ⟨a, rfl⟩ := exists_mregBit a
  obtain ⟨b, rfl⟩ := exists_mregBit b
  obtain rfl : sel = 0 := eq_of_and_allOnes hsel
  obtain rfl : imm = 0 := eq_of_and_allOnes himm
  exact henc a b hb

/-- Rows whose free bits are among those of `a`, `sel` and `imm`. -/
theorem isEncoded_onSelector (op : BitVec 5) (ma : BitVec 1) (mimm : BitVec 16) {build : CommandWord → Instr}
    (henc : ∀ a sel imm, mregBit a &&& ma = 0 → imm &&& mimm = 0 →
      ∃ i, encode i = .command (cwWord op (mregBit a) 0 sel imm)) :
    CwRow.IsEncoded ⟨31#5 ++ ma ++ 1#1 ++ 0#5 ++ 15#4 ++ mimm, cwWord op 0 0 0 0, build⟩ := by
  intro w h
  obtain ⟨a, b, sel, imm, rfl, ha, hb, -, himm⟩ := cwWord_of_match h
  obtain ⟨a, rfl⟩ := exists_mregBit a
  obtain rfl : b = 0 := eq_of_and_allOnes hb
  exact henc a sel imm ha himm

/-- Rows whose free bits are in `imm`. -/
theorem isEncoded_onImmediate (op : BitVec 5) (mimm : BitVec 16) {build : CommandWord → Instr}
    (henc : ∀ imm, imm &&& mimm = 0 → ∃ i, encode i = .command (cwWord op 0 0 0 imm)) :
    CwRow.IsEncoded ⟨31#5 ++ 1#1 ++ 1#1 ++ 31#5 ++ 15#4 ++ mimm, cwWord op 0 0 0 0, build⟩ := by
  intro w h
  obtain ⟨a, b, sel, imm, rfl, ha, hb, hsel, himm⟩ := cwWord_of_match h
  obtain rfl : a = 0 := eq_of_and_allOnes ha
  obtain rfl : b = 0 := eq_of_and_allOnes hb
  obtain rfl : sel = 0 := eq_of_and_allOnes hsel
  exact henc imm himm

/-- The immediate of `LDT` and `RDT`: two unused bits, the index, the character (R65). -/
theorem exists_textImm (imm : BitVec 16) (mch : Byte) (h : imm &&& (3#2 ++ 0#6 ++ mch) = 0) :
    ∃ (idx : BitVec 6) (ch : Byte), imm = (0 : BitVec 2) ++ idx ++ ch ∧ ch &&& mch = 0 := by
  have himm : imm = imm.extractLsb' 14 2 ++ imm.extractLsb' 8 6 ++ imm.extractLsb' 0 8 := by
    apply BitVec.eq_of_getLsbD_eq
    intro i hi
    simp only [BitVec.getLsbD_append, BitVec.getLsbD_extractLsb']
    interval_cases i <;> simp
  generalize imm.extractLsb' 14 2 = unused, imm.extractLsb' 8 6 = idx, imm.extractLsb' 0 8 = ch at himm
  subst himm
  have hzero : unused ++ idx ++ ch &&& (3#2 ++ 0#6 ++ mch) = 0#2 ++ 0#6 ++ 0#8 := h
  rw [BitVec.and_append, BitVec.and_append] at hzero
  obtain ⟨hzero, hch⟩ := append_inj hzero
  obtain ⟨hunused, -⟩ := append_inj hzero
  obtain rfl : unused = 0 := eq_of_and_allOnes hunused
  exact ⟨idx, ch, rfl, hch⟩

theorem cwRows_isEncoded : ∀ r ∈ cwRows, r.IsEncoded := by
  simp only [cwRows, List.forall_mem_cons, List.not_mem_nil, false_imp_iff, implies_true, and_true]
  have onA {op : BitVec 5} {f : MReg → Instr} {build : CommandWord → Instr}
      (henc : ∀ a, encode (f a) = .command (cwWord op (mregBit a) 0 0 0)) :
      CwRow.IsEncoded ⟨0xFBFFFFFF, cwWord op 0 0 0 0, build⟩ :=
    isEncoded_onRegisters op 1 fun a b hb => ⟨f a, by rw [henc, show mregBit b = 0 from eq_of_and_allOnes hb]⟩
  refine ⟨?nop, ?clear, ?ldf, ?rdf, ?send, ?recv, ?exch, ?negotiate, ?activate, ?sethash, ?settmo, ?setcfg, ?rdsr,
    ?clrerr, ?txenc, ?txdec, ?ldt, ?rdt, ?settl⟩
  case nop => exact isEncoded_plain (i := .nop) rfl
  case clear => exact onA (f := .clear) fun a => rfl
  case ldf => exact isEncoded_onSelector 0x02 0 0 fun a sel imm _ _ => ⟨.ldf a sel imm, rfl⟩
  case rdf =>
    exact isEncoded_onSelector 0x03 0 0xFFFF fun a sel imm _ himm =>
      ⟨.rdf a sel, by rw [show imm = 0 from eq_of_and_allOnes himm]; rfl⟩
  case send => exact onA (f := .send) fun a => rfl
  case recv => exact onA (f := .recv) fun a => rfl
  case exch => exact isEncoded_onRegisters 0x06 0 fun a b _ => ⟨.exch a b, rfl⟩
  case negotiate => exact isEncoded_plain (i := .negotiate) rfl
  case activate => exact isEncoded_plain (i := .activate) rfl
  case sethash => exact isEncoded_onImmediate 0x09 0 fun imm _ => ⟨.sethash imm, rfl⟩
  case settmo => exact isEncoded_onImmediate 0x0A 0 fun imm _ => ⟨.settmo imm, rfl⟩
  case setcfg =>
    refine isEncoded_onImmediate 0x0B 0xFFF8 fun imm himm => ?_
    obtain ⟨cfg, rfl⟩ := exists_zeroExtend 3 (by decide) himm
    exact ⟨.setcfg cfg, rfl⟩
  case rdsr =>
    exact isEncoded_onSelector 0x0C 1 0xFFFF fun a sel imm ha himm =>
      ⟨.rdsr sel, by rw [show imm = 0 from eq_of_and_allOnes himm, show mregBit a = 0 from eq_of_and_allOnes ha]; rfl⟩
  case clrerr =>
    refine isEncoded_onImmediate 0x0D 0xFFC0 fun imm himm => ?_
    obtain ⟨mask, rfl⟩ := exists_zeroExtend 6 (by decide) himm
    exact ⟨.clrerr mask, rfl⟩
  case txenc => exact onA (f := .txenc) fun a => rfl
  case txdec => exact onA (f := .txdec) fun a => rfl
  case ldt =>
    refine isEncoded_onImmediate 0x12 0xC000 fun imm himm => ?_
    obtain ⟨idx, ch, rfl, -⟩ := exists_textImm imm 0 himm
    exact ⟨.ldt idx ch, rfl⟩
  case rdt =>
    refine isEncoded_onImmediate 0x13 0xC0FF fun imm himm => ?_
    obtain ⟨idx, ch, rfl, hch⟩ := exists_textImm imm 0xFF himm
    exact ⟨.rdt idx, by rw [show ch = 0 from eq_of_and_allOnes hch]; rfl⟩
  case settl =>
    refine isEncoded_onImmediate 0x14 0xFFC0 fun imm himm => ?_
    obtain ⟨n, rfl⟩ := exists_zeroExtend 6 (by decide) himm
    exact ⟨.settl n, rfl⟩

/-- A word that decodes is the encoding of some instruction, and by O1 of the one it decodes to. -/
theorem encode_of_decodeCommand {w : CommandWord} {i : Instr} (h : decodeCommand w = .ok i) :
    encode i = .command w := by
  obtain ⟨r, hrow, hmatch, -⟩ := decodeCommand_ok h
  obtain ⟨j, hj⟩ := cwRows_isEncoded r hrow w hmatch
  have hdecode : decode (encode j) = .ok j := decodeOfEncodeIsTheInstruction j
  rw [hj] at hdecode
  obtain rfl : j = i := Except.ok.inj (hdecode.symm.trans h)
  exact hj

/-- Settles O2, for the two ports. -/
theorem decodedWireIsItsEncoding : Obligations.DecodedWireIsItsEncoding := by
  intro x i h
  cases x with
  | command w => exact encode_of_decodeCommand h
  | frame f => exact encode_of_decodeBus h

/-! ### The table of command words -/

theorem row_pattern_ops_differ :
    cwRows.Pairwise fun r q => r.pattern.extractLsb' 27 5 ≠ q.pattern.extractLsb' 27 5 := by
  decide

/-- Settles O3: a word that matches a row has the operation code of its pattern, and no two rows have the same. -/
theorem commandRowsAreDisjoint : Obligations.CommandRowsAreDisjoint := by
  refine row_pattern_ops_differ.imp_of_mem fun hr hq hops w ⟨hmatch_r, hmatch_q⟩ => hops ?_
  rw [← op_of_match (row_masks_hold_op _ hr) hmatch_r, op_of_match (row_masks_hold_op _ hq) hmatch_q]

/-- Settles O4: the identifiers by evaluation, the words as command words of their instructions. -/
theorem workedEncodingsHold : Obligations.WorkedEncodingsHold :=
  ⟨by decide, by decide, by decide, by decide, (commandIs_clear .m0).2, (commandIs_ldf .m0 18 0x4007).2,
    (commandIs_exch .m0 .m1).2⟩

end Sys2Proof
end

section
/-!
PROOFS. The round trips of the frame codec (41_frame_io.md R116), and that no pad byte reaches the bus or the text form
(10_state.md R13).
-/

namespace Sys2Proof.Machine

/-! ### Payloads with zero pad bytes -/

theorem padZero_congr {len : BitVec 4} {d d' : Payload} (h : ∀ k : Fin 8, k.val < len.toNat → d[k] = d'[k]) :
    padZero len d = padZero len d' := by
  apply Vector.ext
  intro k hk
  simp only [padZero, Vector.getElem_ofFn]
  split
  next hlt => exact h ⟨k, hk⟩ hlt
  next => rfl

theorem padZero_of_pad_zero {len : BitVec 4} {d : Payload} (h : ∀ k : Fin 8, len.toNat ≤ k.val → d[k] = 0) :
    padZero len d = d := by
  apply Vector.ext
  intro k hk
  simp only [padZero, Vector.getElem_ofFn]
  split
  next => rfl
  next hge => exact (h ⟨k, hk⟩ (Nat.le_of_not_lt hge)).symm

theorem padZero_shown (len : BitVec 4) (d : Payload) (k : Fin 8) (hk : k.val < len.toNat) :
    (padZero len d)[k] = d[k] := by
  rw [padZero_get, if_pos hk]

theorem padZero_pad (len : BitVec 4) (d : Payload) (k : Fin 8) (hk : len.toNat ≤ k.val) : (padZero len d)[k] = 0 := by
  rw [padZero_get, if_neg (Nat.not_lt.mpr hk)]

theorem padZero_padZero (len : BitVec 4) (d : Payload) : padZero len (padZero len d) = padZero len d :=
  padZero_of_pad_zero (padZero_pad len d)

/-! ### The round trips of the frame codec -/

/-- A message comes back from its frame with its pad bytes zeroed. -/
theorem decodeFrame_encodeFrame (m : Message) (hlen : m.len ≤ 8) :
    decodeFrame (encodeFrame m) = { m with data := padZero m.len m.data } := by
  simp only [decodeFrame, encodeFrame, idPrio_packId, idCmd_packId, idResp_packId, idHash_packId,
    saturateLen_of_le m.len hlen, padZero_padZero]

/-- A frame comes back from its message when it is of the kind the block sends. -/
theorem encodeFrame_decodeFrame (f : Frame) (h28 : f.id.getLsbD 28 = false) (hext : f.ext = true) (hdlen : f.dlen ≤ 8)
    (hpad : ∀ k : Fin 8, f.dlen.toNat ≤ k.val → f.pay[k] = 0) : encodeFrame (decodeFrame f) = f := by
  have hid : packId (idPrio f.id) (idCmd f.id) (idResp f.id) (idHash f.id) = f.id := packId_unpack f.id h28
  simp only [encodeFrame, decodeFrame, saturateLen_of_le f.dlen hdlen, padZero_of_pad_zero hpad, hid, ← hext]

/-- Settles O9, each half from its round trip. -/
theorem frameRoundTrips : Obligations.FrameRoundTrips := by
  refine ⟨fun m hlen => ?_, encodeFrame_decodeFrame⟩
  rw [decodeFrame_encodeFrame m hlen]
  exact ⟨⟨rfl, rfl, rfl, rfl, rfl, padZero_shown m.len m.data⟩, padZero_pad m.len m.data⟩

/-! ### Pad bytes -/

/-- The data bytes that the text form shows, too, are those below the length. -/
theorem take_toList_congr {n : Nat} {d d' : Payload} (h : ∀ k : Fin 8, k.val < n → d[k] = d'[k]) :
    d.toList.take n = d'.toList.take n := by
  apply List.ext_getElem
  · simp
  · intro k hk _
    have hkn : k < n ∧ k < 8 := by simpa using hk
    simpa using h ⟨k, hkn.2⟩ hkn.1

/-- Settles O10: both forms read the payload through `padZero` or `List.take`, which see no pad byte. -/
theorem padBytesNeverShow : Obligations.PadBytesNeverShow := by
  rintro ⟨prio, cmd, resp, hash, len, data⟩ ⟨_, _, _, _, _, data'⟩ ⟨rfl, rfl, rfl, rfl, rfl, hdata⟩
  constructor
  · simp only [encodeFrame, padZero_congr hdata]
  · simp only [encodeText, take_toList_congr hdata]

end Sys2Proof.Machine
end

section
/-!
PROOFS. The round trips of the text codec (44_text_codec.md R167): digit by digit from `TextFormByPosition` and
`decodeText_iff_fields`.
-/

namespace Sys2Proof.Machine

/-! ### Values put together from the digits written for them -/

theorem digitAt_hexChar {cs : List Byte} {i : Nat} {d : BitVec 4} (h : cs[i]? = some (hexChar d)) :
    digitAt cs i = some d := by
  rw [digitAt, h, Option.bind_some, hexVal_hexChar]

theorem nibbles_append (b : Byte) : b.extractLsb' 4 4 ++ b.extractLsb' 0 4 = b := by
  apply BitVec.eq_of_getLsbD_eq
  intro i hi
  simp only [BitVec.getLsbD_append, BitVec.getLsbD_extractLsb']
  interval_cases i <;> simp

theorem joinBytes_hiByte_loByte (v : BitVec 16) : joinBytes (hiByte v) (loByte v) = v := by
  apply BitVec.eq_of_getLsbD_eq
  intro i hi
  simp only [joinBytes, hiByte, loByte, BitVec.getLsbD_append, BitVec.getLsbD_extractLsb']
  interval_cases i <;> simp

theorem byteAt_hexByte {cs : List Byte} {i : Nat} {b : Byte} (hi : cs[i]? = some (hexChar (b.extractLsb' 4 4)))
    (hlo : cs[i + 1]? = some (hexChar (b.extractLsb' 0 4))) : byteAt cs i = some b :=
  (byteAt_eq_some cs i b).mpr ⟨_, _, digitAt_hexChar hi, digitAt_hexChar hlo, (nibbles_append b).symm⟩

/-! ### Decoding the text form of a message -/

/-- A message comes back from its text form without its priority and with its pad bytes zeroed. -/
theorem decodeText_encodeText (m : Message) (hlen : m.len ≤ 8) :
    decodeText (encodeText m) = some { m with prio := 0, data := padZero m.len m.data } := by
  obtain ⟨hlength, h0, h1, h2, h3, -, h5, -, h7, h8, -, h10, hdata⟩ := textFormByPosition m hlen
  rw [decodeText_iff_fields]
  have hash_read : WordAt (encodeText m) 0 m.hash := by
    refine ⟨hiByte m.hash, loByte m.hash, byteAt_hexByte ?_ ?_, byteAt_hexByte ?_ ?_,
      (joinBytes_hiByte_loByte m.hash).symm⟩
    · rw [h0, hiByte_nibble _ _ (by decide)]
    · rw [h1, hiByte_nibble _ _ (by decide)]
    · rw [h2, loByte_nibble _ _ (by decide)]
    · rw [h3, loByte_nibble _ _ (by decide)]
  have resp_read : m.resp = true ↔ (encodeText m)[5]? = some 0x52 := by
    rw [h5]
    cases m.resp <;> decide
  have data_read : PayloadAt (encodeText m) m.len.toNat (padZero m.len m.data) := by
    refine ⟨fun k hk => ?_, padZero_pad m.len m.data⟩
    obtain ⟨-, hhi, hlo⟩ := hdata k hk
    rw [padZero_shown m.len m.data k hk]
    exact byteAt_hexByte hhi (by rw [← hlo]; congr 1; omega)
  exact ⟨by omega, hash_read, byteAt_hexByte h7 h8, digitAt_hexChar h10, hlen, hlength.ge, rfl, resp_read, data_read⟩

/-! ### Encoding the message of a string -/

/-- Upper case for a hexadecimal digit that is written in lower case. -/
def upperDigit (c : Byte) : Byte := if 0x61 ≤ c ∧ c ≤ 0x66 then c - 0x20 else c

theorem hexChar_of_digitAt {cs : List Byte} {i : Nat} {d : BitVec 4} (h : digitAt cs i = some d) :
    hexChar d = upperDigit (cs.getD i 0) := by
  obtain ⟨c, hc, hval⟩ := Option.bind_eq_some_iff.mp h
  rw [hexChar_of_hexVal c d hval, List.getD_eq_getElem?_getD, hc]
  rfl

theorem append_hi (hi lo : BitVec 4) : (hi ++ lo : Byte).extractLsb' 4 4 = hi :=
  BitVec.extractLsb'_append_eq_left

theorem append_lo (hi lo : BitVec 4) : (hi ++ lo : Byte).extractLsb' 0 4 = lo :=
  BitVec.extractLsb'_append_eq_right

theorem hiByte_joinBytes (hi lo : Byte) : hiByte (joinBytes hi lo) = hi :=
  BitVec.extractLsb'_append_eq_left

theorem loByte_joinBytes (hi lo : Byte) : loByte (joinBytes hi lo) = lo :=
  BitVec.extractLsb'_append_eq_right

/-- The two digits of a byte that was read are those that were read for it, in upper case. -/
theorem hexChars_of_byteAt {cs : List Byte} {i : Nat} {b : Byte} (h : byteAt cs i = some b) :
    hexChar (b.extractLsb' 4 4) = upperDigit (cs.getD i 0) ∧
    hexChar (b.extractLsb' 0 4) = upperDigit (cs.getD (i + 1) 0) := by
  obtain ⟨hi, lo, hhi, hlo, rfl⟩ := (byteAt_eq_some cs i b).mp h
  rw [append_hi, append_lo]
  exact ⟨hexChar_of_digitAt hhi, hexChar_of_digitAt hlo⟩

/-- The character at position `i` of the text form of the message that `cs` decodes to: the digits of `cs` in upper
case, its separators as spaces, its response position as `'R'` or space (R167). -/
def canonicalChar (cs : List Byte) (i : Nat) : Byte :=
  if i = 5 then (if cs[5]? = some 0x52 then 0x52 else 0x20)
  else if i = 4 ∨ i = 6 ∨ i = 9 ∨ (11 ≤ i ∧ (i - 11) % 3 = 0) then 0x20
  else upperDigit (cs.getD i 0)

theorem canonicalChar_separator (cs : List Byte) (k : Nat) : canonicalChar cs (11 + 3 * k) = 0x20 := by
  rw [canonicalChar, if_neg (by omega), if_pos (by omega)]

theorem canonicalChar_hiDigit (cs : List Byte) (k : Nat) :
    canonicalChar cs (12 + 3 * k) = upperDigit (cs.getD (12 + 3 * k) 0) := by
  rw [canonicalChar, if_neg (by omega), if_neg (by omega)]

theorem canonicalChar_loDigit (cs : List Byte) (k : Nat) :
    canonicalChar cs (13 + 3 * k) = upperDigit (cs.getD (13 + 3 * k) 0) := by
  rw [canonicalChar, if_neg (by omega), if_neg (by omega)]

/-- A position of the text form is in the header, or one of the three of a data byte. -/
theorem text_position (n i : Nat) (hi : i < 11 + 3 * n) :
    i < 11 ∨ ∃ k < n, i = 11 + 3 * k ∨ i = 12 + 3 * k ∨ i = 13 + 3 * k := by
  by_cases h : i < 11
  · exact .inl h
  · exact .inr ⟨(i - 11) / 3, by omega, by omega⟩

theorem encodeText_header_of_decodeText {cs : List Byte} {m : Message} (h : decodeText cs = some m) (i : Nat)
    (hi : i < 11) : (encodeText m)[i]? = some (canonicalChar cs i) := by
  obtain ⟨-, ⟨hi1, lo1, hhi, hlo, hhash⟩, hcmd, hlen, hle, -, -, hresp, -⟩ := (decodeText_iff_fields cs m).mp h
  obtain ⟨-, t0, t1, t2, t3, t4, t5, t6, t7, t8, t9, t10, -⟩ := textFormByPosition m hle
  obtain ⟨d0, d1⟩ := hexChars_of_byteAt hhi
  obtain ⟨d2, d3⟩ := hexChars_of_byteAt hlo
  obtain ⟨d7, d8⟩ := hexChars_of_byteAt hcmd
  have d10 := hexChar_of_digitAt hlen
  have hhiByte : hiByte m.hash = hi1 := by rw [hhash, hiByte_joinBytes]
  have hloByte : loByte m.hash = lo1 := by rw [hhash, loByte_joinBytes]
  rw [← hhiByte, hiByte_nibble _ _ (by decide)] at d0 d1
  rw [← hloByte, loByte_nibble _ _ (by decide)] at d2 d3
  match i, hi with
  | 0, _ => rw [t0, d0]; rfl
  | 1, _ => rw [t1, d1]; rfl
  | 2, _ => rw [t2, d2]; rfl
  | 3, _ => rw [t3, d3]; rfl
  | 4, _ => exact t4
  | 5, _ => rw [t5]; simp only [canonicalChar, hresp, if_true]
  | 6, _ => exact t6
  | 7, _ => rw [t7, d7]; rfl
  | 8, _ => rw [t8, d8]; rfl
  | 9, _ => exact t9
  | 10, _ => rw [t10, d10]; rfl

theorem encodeText_of_decodeText {cs : List Byte} {m : Message} (h : decodeText cs = some m) :
    encodeText m = (List.range (11 + 3 * m.len.toNat)).map (canonicalChar cs) := by
  obtain ⟨-, -, -, -, hle, -, -, -, hdata, -⟩ := (decodeText_iff_fields cs m).mp h
  have hlength := encodeText_length m hle
  apply List.ext_getElem?
  intro i
  by_cases hi : i < 11 + 3 * m.len.toNat
  case neg =>
    rw [List.getElem?_eq_none (by omega), List.getElem?_eq_none (by simp; omega)]
  case pos =>
    rw [List.getElem?_map, List.getElem?_range hi, Option.map_some]
    rcases text_position m.len.toNat i hi with hheader | ⟨k, hk, hik⟩
    · exact encodeText_header_of_decodeText h i hheader
    · have hle8 : m.len.toNat ≤ 8 := hle
      obtain ⟨hsep, hhi, hlo⟩ := encodeText_dataByte m hle ⟨k, by omega⟩ hk
      obtain ⟨dhi, dlo⟩ := hexChars_of_byteAt (hdata ⟨k, by omega⟩ hk)
      rcases hik with rfl | rfl | rfl
      · rw [hsep, canonicalChar_separator]
      · rw [hhi, dhi, canonicalChar_hiDigit]
      · rw [hlo, dlo, canonicalChar_loDigit, show 12 + 3 * k + 1 = 13 + 3 * k by omega]

/-- Settles O14: the first half in the fields of the decoded message, the second position by position. -/
theorem textRoundTrips : Obligations.TextRoundTrips :=
  ⟨fun m hlen => ⟨_, decodeText_encodeText m hlen, rfl, rfl, rfl, rfl, rfl, padZero_shown m.len m.data,
    padZero_pad m.len m.data⟩, fun _ _ => encodeText_of_decodeText⟩

end Sys2Proof.Machine
end

section
/-!
PROOFS. The requests of the surrounding software: each is read back as its pseudo-operation, and the command words
before the exchange build it (30_encoding.md R77, 46_command_layouts.md R195 to R206).
-/

namespace Sys2Proof.Machine

/-! ### Reading a request back -/

/-- Settles O15, layout by layout: code and length choose the row of R77, and an address or a 16-bit value stands in the
payload as the two bytes that `pairAt` joins again. -/
theorem requestLayoutsAreReadBack : Obligations.RequestLayoutsAreReadBack := by
  intro op hash
  cases op with
  | power on => cases on <;> rfl
  | halt => rfl
  | estop => rfl
  | ping => rfl
  | _ => simp [readRequest, PseudoOp.request, PseudoOp.code, PseudoOp.bytes, payloadOf, pairAt, pairHi, pairLo,
      joinBytes_hiByte_loByte]

/-! ### What a load does to `M0` -/

/-- The operation completes with `(1, 0, 0)` and does `g` to `M0`. -/
def LoadsM0 (i : Instr) (g : Message → Message) : Prop :=
  ∀ s : State, exec i s = .next ((s.setMsg .m0 (g s.m0)).respond true 0 0)

theorem loadsM0_clear : LoadsM0 (.clear .m0) fun _ => Message.cleared := exec_clear .m0

theorem loadsM0_ldf {sel : BitVec 5} {imm : BitVec 16} {f : Field} (hf : fieldOf sel = some f)
    (hmax : imm.toNat ≤ f.max) : LoadsM0 (.ldf .m0 sel imm) (f.write imm) := fun s => by
  rw [exec_ldf, loadField_named .m0 sel imm s f hf hmax, State.msg_m0]

theorem byte_le_max (b : Byte) : (b.zeroExtend 16).toNat ≤ 255 := by
  have := b.isLt
  simp
  omega

theorem byte_zeroExtend_setWidth (b : Byte) : (b.zeroExtend 16).setWidth 8 = b := by
  simp

theorem loadsM0_loadCmd (c : Byte) : LoadsM0 (loadCmd c) fun m => { m with cmd := c } := by
  have hwrite : Field.cmd.write (c.zeroExtend 16) = fun m => { m with cmd := c } := by
    funext m
    rw [Field.write_cmd, byte_zeroExtend_setWidth]
  exact hwrite ▸ loadsM0_ldf (f := .cmd) rfl (byte_le_max c)

theorem loadsM0_loadByte (k : Fin 8) (b : Byte) :
    LoadsM0 (loadByte k b) fun m => { m with data := m.data.set k b } := by
  have hwrite : (Field.byte k).write (b.zeroExtend 16) = fun m => { m with data := m.data.set k b } := by
    funext m
    rw [Field.write_byte, byte_zeroExtend_setWidth]
  have hsel : (BitVec.ofNat 5 (8 + k.val)).toNat = 8 + k.val := by
    rw [BitVec.toNat_ofNat]
    omega
  exact hwrite ▸ loadsM0_ldf (fieldOf_byte _ k hsel) (byte_le_max b)

theorem loadsM0_loadPair (k : Fin 7) (v : BitVec 16) : LoadsM0 (loadPair k v) fun m =>
    { m with data := (m.data.set (pairHi k) (hiByte v)).set (pairLo k) (loByte v) } := by
  have hsel : (BitVec.ofNat 5 (16 + k.val)).toNat = 16 + k.val := by
    rw [BitVec.toNat_ofNat]
    omega
  exact loadsM0_ldf (fieldOf_pair _ k hsel) (Nat.le_of_lt_succ v.isLt)

theorem loadsM0_loadLen (n : BitVec 16) (hn : n.toNat ≤ 8) :
    LoadsM0 (loadLen n) fun m => { m with len := n.setWidth 4 } :=
  funext (Field.write_len n) ▸ loadsM0_ldf (f := .len) rfl hn

/-! ### What a list of loads does -/

/-- What a list of loads leaves: `m` in `M0`, one response `(1, 0, 0)` for each of the `n` words, and nothing else
that the host reads. -/
structure Loaded (n : Nat) (m : Message) (s t : State) : Prop where
  m0 : t.m0 = m
  m1 : t.m1 = s.m1
  hash : t.hash = s.hash
  err : t.err = s.err
  responses : t.env.responses = List.replicate n ⟨true, 0, 0⟩ ++ s.env.responses

theorem execList_cons {i : Instr} {s t : State} (h : exec i s = .next t) (is : List Instr) :
    execList (i :: is) s = execList is t := by
  simp only [execList, h]

/-- A list of loads does to `M0` what its words do, one after the other. -/
theorem execList_loads {is : List Instr} {gs : List (Message → Message)} (h : List.Forall₂ LoadsM0 is gs)
    (s : State) : ∃ t, execList is s = .next t ∧ Loaded is.length (gs.foldl (fun m g => g m) s.m0) s t := by
  induction h generalizing s with
  | nil => exact ⟨s, rfl, rfl, rfl, rfl, rfl, rfl⟩
  | @cons i g is gs hi _ ih =>
    obtain ⟨t, hrun, hm0, hm1, hhash, herr, hresponses⟩ := ih ((s.setMsg .m0 (g s.m0)).respond true 0 0)
    refine ⟨t, (execList_cons (hi s) is).trans hrun, hm0, hm1, hhash, herr, ?_⟩
    rw [hresponses, List.length_cons, List.replicate_succ', List.append_assoc]
    rfl

/-- The loads of a pseudo-operation, one after the other, make its request of the cleared message with its command
code. -/
def PseudoOp.LoadsRequest (op : PseudoOp) : Prop :=
  ∃ gs, List.Forall₂ LoadsM0 op.loads gs ∧
    gs.foldl (fun m g => g m) { Message.cleared with cmd := op.code } = op.request 0

/-- The loads put the bytes and the length where the layout has them. -/
theorem PseudoOp.loadsRequest (op : PseudoOp) : op.LoadsRequest := by
  have len (n : BitVec 16) (hn : n.toNat ≤ 8) := List.Forall₂.cons (loadsM0_loadLen n hn) .nil
  cases op with
  | power on =>
    cases on
    · exact ⟨_, .cons (loadsM0_loadByte 4 0) (len 5 (by decide)), rfl⟩
    · exact ⟨_, .cons (loadsM0_loadByte 4 1) (len 5 (by decide)), rfl⟩
  | halt => exact ⟨_, .cons (loadsM0_loadByte 4 2) (len 5 (by decide)), rfl⟩
  | estop => exact ⟨_, .cons (loadsM0_loadByte 4 3) (len 5 (by decide)), rfl⟩
  | setDir a d =>
    exact ⟨_, .cons (loadsM0_loadPair 2 a) (.cons (loadsM0_loadByte 4 d) (len 5 (by decide))), rfl⟩
  | getDir a => exact ⟨_, .cons (loadsM0_loadPair 2 a) (len 4 (by decide)), rfl⟩
  | setSpeed a v =>
    exact ⟨_, .cons (loadsM0_loadPair 2 a) (.cons (loadsM0_loadPair 4 v) (len 6 (by decide))), rfl⟩
  | getSpeed a => exact ⟨_, .cons (loadsM0_loadPair 2 a) (len 4 (by decide)), rfl⟩
  | setFunc a i l =>
    exact ⟨_, .cons (loadsM0_loadPair 2 a) (.cons (loadsM0_loadByte 4 i)
      (.cons (loadsM0_loadByte 5 l) (len 6 (by decide)))), rfl⟩
  | getFunc a i =>
    exact ⟨_, .cons (loadsM0_loadPair 2 a) (.cons (loadsM0_loadByte 4 i) (len 5 (by decide))), rfl⟩
  | setAcc a pos pw =>
    exact ⟨_, .cons (loadsM0_loadPair 2 a) (.cons (loadsM0_loadByte 4 pos)
      (.cons (loadsM0_loadByte 5 pw) (len 6 (by decide)))), rfl⟩
  | rdCfg a n =>
    exact ⟨_, .cons (loadsM0_loadPair 2 a) (.cons (loadsM0_loadPair 4 n)
      (.cons (loadsM0_loadByte 6 1) (len 7 (by decide)))), rfl⟩
  | wrCfg a n v =>
    exact ⟨_, .cons (loadsM0_loadPair 2 a) (.cons (loadsM0_loadPair 4 n)
      (.cons (loadsM0_loadByte 6 v) (len 7 (by decide)))), rfl⟩
  | ping => exact ⟨_, .nil, rfl⟩

/-- Settles O16: `CLEAR` and `LDF CMD` make the message that the loads start from, and what a list of loads leaves is
said field by field. -/
theorem loadsBuildTheRequest : Obligations.LoadsBuildTheRequest := by
  intro op s
  obtain ⟨gs, hloads, hrequest⟩ := op.loadsRequest
  obtain ⟨t, hrun, hm0, hm1, hhash, herr, hresponses⟩ :=
    execList_loads (.cons loadsM0_clear (.cons (loadsM0_loadCmd op.code) hloads)) s
  exact ⟨t, hrun, hm0.trans hrequest, hm1, hhash, herr, hresponses⟩

/-! ### Reading a loaded field back -/

/-- `RDF` reads back every value that `LDF` accepts: the field is as wide as its maximum needs. -/
theorem Field.read_write (f : Field) (v : BitVec 16) (m : Message) (hmax : v.toNat ≤ f.max) :
    f.read (f.write v m) = v.zeroExtend 32 := by
  have fits {n : Nat} (hn : v.toNat < 2 ^ n) : (v.extractLsb' 0 n).zeroExtend 32 = v.zeroExtend 32 := by
    apply BitVec.eq_of_toNat_eq
    simp only [BitVec.truncate_eq_setWidth, BitVec.toNat_setWidth, BitVec.extractLsb'_toNat, Nat.shiftRight_zero,
      Nat.mod_eq_of_lt hn]
  have data_set (d : Payload) (k : Fin 8) (b : Byte) : (d.set k b)[k] = b := by simp
  cases f with
  | prio => exact fits (Nat.lt_succ_of_le hmax)
  | cmd => exact fits (Nat.lt_succ_of_le hmax)
  | resp =>
    have h : v = 0 ∨ v = 1 := by simp only [Field.max] at hmax; bv_omega
    rcases h with rfl | rfl <;> rfl
  | hash => rfl
  | len => exact fits (Nat.lt_of_le_of_lt hmax (by decide))
  | byte k =>
    simp only [Field.read, Field.write, data_set]
    exact fits (Nat.lt_succ_of_le hmax)
  | pair k =>
    have hne : (pairLo k).val ≠ (pairHi k).val := by simp [pairLo, pairHi]
    have hhi : ((m.data.set (pairHi k) (hiByte v)).set (pairLo k) (loByte v))[pairHi k] = hiByte v := by
      simp [Vector.getElem_set_ne _ _ hne]
    simp only [Field.read, Field.write, data_set, hhi, joinBytes_hiByte_loByte]

/-- Settles O23: the load is within the maximum, so it is taken, and `Field.read_write` gives the answer. -/
theorem rdfReadsWhatLdfLoaded : Obligations.RdfReadsWhatLdfLoaded := by
  intro a sel imm s f hf hmax
  refine ⟨_, (exec_ldf a sel imm s).trans (congrArg Host.Outcome.next (loadField_named a sel imm s f hf hmax)),
    exec_rdf_answers hf ?_⟩
  rw [State.respond_msg, State.setMsg_msg_same, Field.read_write f imm _ hmax]

end Sys2Proof.Machine
end

section
/-!
PROOFS. The shared operations: raising an error, responding, the draws (60_exceptions.md R220 to R222, R240;
30_encoding.md R73; 41_frame_io.md R110, R111; 43_negotiation.md R141), and the arrival of a frame at the transport
(30_encoding.md R76, R78).
-/

namespace Sys2Proof.Machine

/-! ### Errors and responses -/

theorem causeMask_getLsbD (e : Cause) (i : Nat) (hi : i < 6) : (causeMask e).getLsbD i = (i == causeBit e) := by
  revert hi i
  cases e <;> decide

/-- Raising a cause sets its own bit and keeps every other. -/
theorem errWith_getLsbD (err : BitVec 6) (e : Cause) (i : Nat) (hi : i < 6) :
    (errWith err e).getLsbD i = (err.getLsbD i || i == causeBit e) := by
  rw [errWith, BitVec.getLsbD_or, causeMask_getLsbD e i hi]

/-- Settles O17: the table cause by cause, the bits from `errWith_getLsbD`. -/
theorem raiseSetsOneStickyBit : Obligations.RaiseSetsOneStickyBit :=
  ⟨fun e => by cases e <;> rfl, fun s e => ⟨rfl, errWith_getLsbD s.err e⟩⟩

/-- Settles O18: both operations are defined as the rules say. -/
theorem respondDeliversOneResponse : Obligations.RespondDeliversOneResponse :=
  ⟨fun _ _ _ _ => rfl, fun _ _ => rfl⟩

/-! ### Draws -/

theorem txAnswer_of_cons {s : State} {b : Bool} {bs : List Bool} (h : s.env.tx = b :: bs) : s.txAnswer = b := by
  rw [State.txAnswer, h, List.headD_cons]

theorem rxAnswer_of_cons {s : State} {r : Option Frame} {rs : List (Option Frame)} (h : s.env.rx = r :: rs) :
    s.rxAnswer = r := by
  rw [State.rxAnswer, h, List.headD_cons]

theorem clock_of_cons {s : State} {d : BitVec 32} {ds : List (BitVec 32)} (h : s.env.clk = d :: ds) :
    s.clock = s.env.now + d := by
  rw [State.clock, h, List.headD_cons]

theorem rndValue_of_cons {s : State} {v : BitVec 16} {vs : List (BitVec 16)} (h : s.env.rnd = v :: vs) :
    s.rndValue = v := by
  rw [State.rndValue, h, List.headD_cons]

/-- Settles O19, draw by draw: the answer is the head of its list and the tail is left. -/
theorem drawsTakeTheNextAnswer : Obligations.DrawsTakeTheNextAnswer := by
  refine ⟨fun s b bs f h => ⟨txAnswer_of_cons h, ?_, ?_⟩, fun s r rs h => ⟨rxAnswer_of_cons h, ?_⟩,
    fun s d ds h => ⟨clock_of_cons h, clock_of_cons h, ?_⟩, fun s v vs h => ⟨rndValue_of_cons h, ?_⟩⟩
  · rw [State.offer_env_tx, h, List.tail_cons]
  · rw [State.offer_env_offers, txAnswer_of_cons h]
  · rw [State.polled_env_rx, h, List.tail_cons]
  · rw [State.clockRead_env_clk, h, List.tail_cons]
  · rw [State.rndRead_env_rnd, h, List.tail_cons]

/-! ### The arrival of a frame -/

/-- The eight protocol command codes have one meaning: the frame with that code arrives. -/
theorem exec_busRow {g : BusArgs} {i : Instr} {c : Byte} (hrow : (i, c) ∈ busRows g) (s : State) :
    exec i s = .next (s.deliver (busFrame c g)) := by
  have every_row : ∀ p ∈ busRows g, exec p.1 s = .next (s.deliver (busFrame p.2 g)) := by
    simp only [busRows, List.forall_mem_cons]
    exact ⟨rfl, rfl, rfl, rfl, rfl, rfl, rfl, rfl, nofun⟩
  exact every_row (i, c) hrow

/-- Settles O45: the frame is `busFrame`, whose identifier unpacks to the fields it was packed of. -/
theorem busFrameReachesTheTransport : Obligations.BusFrameReachesTheTransport := fun g s _ c hrow =>
  ⟨busFrame c g, exec_busRow hrow s, idBit28_packIdWith _ _ _ _ _, idPrio_packIdWith _ _ _ _ _, idCmd_busFrame c g,
    idResp_packIdWith _ _ _ _ _, idHash_packIdWith _ _ _ _ _, rfl, rfl, rfl⟩

/-- `RECV` stores the frame that its one poll finds. -/
theorem exec_recv_some {s : State} {f : Frame} (h : s.rxAnswer = some f) (a : MReg) :
    exec (.recv a) s = .next ((s.polled.setMsg a (decodeFrame f)).respond true 0 (f.id.zeroExtend 32)) := by
  rw [exec_recv, h, recvAnswered_some]

/-- Settles O46: with no answer known before it, the arrived frame is the next answer, and its message is known field by
field from `decodeFrame_packIdWith`. -/
theorem recvStoresTheArrivedBusFrame : Obligations.RecvStoresTheArrivedBusFrame := by
  intro g s a i c hrow hempty
  have harrived : (s.deliver (busFrame c g)).env.rx = [some (busFrame c g)] := by
    rw [State.deliver_env_rx, hempty, List.nil_append]
  have hmsg : decodeFrame (busFrame c g) =
      ⟨g.prio, c, g.resp, g.hash, saturateLen g.dlen, padZero (saturateLen g.dlen) g.pay⟩ :=
    decodeFrame_packIdWith _ _ _ _ _ _ _ _
  refine ⟨_, _, exec_busRow hrow s, exec_recv_some (rxAnswer_of_cons harrived) a, ?_, ?_⟩
  · rw [State.respond_env_rx, State.setMsg_env, State.polled_env_rx, harrived, List.tail_cons]
  · simp only [State.respond_msg, State.setMsg_msg_same, hmsg]
    exact ⟨trivial, trivial, trivial, trivial, rfl, padZero_get _ _⟩

end Sys2Proof.Machine
end

section
/-!
PROOFS. The arbiter's candidate and the draw that adopts it (43_negotiation.md R142; 00_scope.md R7).
-/

namespace Sys2Proof.Machine

/-! ### The candidate -/

theorem candidate_and_or (a o r : BitVec 16) : candidate a o r &&& o = o := by
  apply BitVec.eq_of_getLsbD_eq
  intro i hi
  cases hbit : o.getLsbD i <;> simp [candidate, hbit]

theorem candidate_outside (a o r : BitVec 16) : candidate a o r &&& ~~~(a ||| o) = 0 := by
  apply BitVec.eq_of_getLsbD_eq
  intro i hi
  cases ha : a.getLsbD i <;> cases ho : o.getLsbD i <;> simp [candidate, ha, ho]

theorem candidate_isCandidate (r : BitVec 16) : IsCandidate (candidate Config.hashAnd Config.hashOr r) :=
  ⟨candidate_and_or _ _ r, candidate_outside _ _ r⟩

/-- `HASH_OR` is not 0, and a candidate has its bits. -/
theorem IsCandidate.ne_zero {c : BitVec 16} (h : IsCandidate c) : c ≠ 0 := by
  rintro rfl
  exact hashOr_ne_zero (h.1.symm.trans BitVec.zero_and)

/-- Settles O31. -/
theorem candidatesLookAlike : Obligations.CandidatesLookAlike := fun r =>
  ⟨candidate_and_or _ _ r, candidate_outside _ _ r, (candidate_isCandidate r).ne_zero⟩

/-! ### NG_DRAW -/

theorem step_ngDraw {s e : State} (hmoves : s.EngineMoves e) (hphase : s.phase = .ngDraw) :
    step s = .next (ngDraw e) := by
  rw [step_arbiter hmoves (.inl hphase), engineTurn_ngDraw (hmoves.phase_eq.trans hphase)]

/-- Settles O30: the micro-step is defined as R142 says. -/
theorem ngDrawAdoptsTheCandidate : Obligations.NgDrawAdoptsTheCandidate := fun _ _ hmoves hphase =>
  step_ngDraw hmoves hphase

end Sys2Proof.Machine
end

section
/-!
PROOFS. What a micro-step of an operation in progress can do, said once for each (42_exchange.md R128, 43_negotiation.md
R142 to R145), and what all of them leave alone.
-/

namespace Sys2Proof.Machine

/-! ### The ends of each micro-step -/

/-- The ends of `EX_POLL`: timeout, no frame, the matching frame, another frame. -/
theorem exPoll_cases (e : State) :
    (∃ code, exPoll e = (e.clockRead.raise .responseTimeout).respond false code 0) ∨
    exPoll e = e.clockRead.polled ∨
    (∃ f, exPoll e = ((e.clockRead.polled.setScr (decodeFrame f)).setMsg e.xdst (decodeFrame f)).respond true e.xerr
      (f.id.zeroExtend 32)) ∨
    ∃ f, exPoll e = e.clockRead.polled.setScr (decodeFrame f) := by
  by_cases hexpired : e.timeout.toNat ≤ (e.clock - e.t0).toNat
  · exact .inl ⟨_, exPoll_expired e hexpired⟩
  · rw [exPoll_polls e hexpired]
    cases e.clockRead.rxAnswer with
    | none => exact .inr (.inl (exchPolled_none _))
    | some f =>
      by_cases hmatch : (decodeFrame f).cmd = e.xcmd ∧ (decodeFrame f).resp = true
      · exact .inr (.inr (.inl ⟨f, exchPolled_match f e.clockRead.polled hmatch⟩))
      · exact .inr (.inr (.inr ⟨f, exchPolled_other f e.clockRead.polled hmatch⟩))

/-- The state in which the ping has been built and offered. -/
def pingOffered (e : State) : State :=
  (e.setScr (pingMessage e.hash)).offer (encodeFrame (pingMessage e.hash))

/-- The ends of `NG_SEND`: the ping accepted or rejected, then the settle interval. -/
theorem ngSend_cases (e : State) : ∃ s, (s = pingOffered e ∨ s = (pingOffered e).raise .sendFailure) ∧
    ngSend e = { s.clockRead with t0 := s.clock, contested := false, phase := .ngSettle } := by
  refine ⟨_, ?_, ngSend_eq e _ rfl⟩
  cases e.txAnswer
  · exact .inr (pingAnswered_rejected _)
  · exact .inl (pingAnswered_accepted _)

/-- The ends of `NG_SETTLE`: the interval over or not. -/
theorem ngSettle_cases (e : State) : ngSettle e = e.clockRead.setPhase .ngDrain ∨ ngSettle e = e.clockRead := by
  by_cases hover : Config.settleMs.toNat ≤ (e.clock - e.t0).toNat
  · exact .inl (ngSettle_over e hover)
  · exact .inr (ngSettle_waits e hover)

/-- The ends of `NG_DRAIN`: a frame compared, the candidate given up, the candidate accepted. -/
theorem ngDrain_cases (e : State) :
    (∃ f, ngDrain e = { e.polled with scr := decodeFrame f,
                                      contested := e.contested || (decodeFrame f).hash == e.hash }) ∨
    ngDrain e = e.polled.setPhase .ngDraw ∨
    ngDrain e = e.polled.respond true 0 (e.hash.zeroExtend 32) := by
  cases hr : e.rxAnswer with
  | some f => exact .inl ⟨f, (ngDrain_of_answer hr).trans (drainAnswered_some f e.polled)⟩
  | none =>
    rw [ngDrain_of_answer hr]
    cases hc : e.contested with
    | true => exact .inr (.inl (drainAnswered_contested e.polled hc))
    | false => exact .inr (.inr (drainAnswered_accepts e.polled hc))

/-! ### What they all leave alone -/

/-- What a turn of the engine that takes no word can do to the registers the host sees: `HASH` is written by a draw
alone, and at most one response ends the operation. -/
structure NoWordFrame (e t : State) : Prop where
  timeout : t.timeout = e.timeout
  cfg : t.cfg = e.cfg
  active : t.active = e.active
  txt : t.txt = e.txt
  txtlen : t.txtlen = e.txtlen
  xcmd : t.xcmd = e.xcmd
  xdst : t.xdst = e.xdst
  xerr : t.xerr = e.xerr
  port : t.env.port = e.env.port
  hash : t.hash = e.hash ∨ e.phase = .ngDraw ∧ IsCandidate t.hash
  halted : t.phase = .halted → e.phase = .halted
  responses : t.env.responses = e.env.responses ∨ ∃ r, t.env.responses = r :: e.env.responses ∧ t.phase = .idle

theorem NoWordFrame.refl (e : State) : NoWordFrame e e :=
  ⟨rfl, rfl, rfl, rfl, rfl, rfl, rfl, rfl, rfl, .inl rfl, id, .inl rfl⟩

theorem exPoll_frame (e : State) (hp : e.phase = .exPoll) : NoWordFrame e (exPoll e) := by
  obtain ⟨_, h⟩ | h | ⟨_, h⟩ | ⟨_, h⟩ := exPoll_cases e <;> rw [h] <;> constructor <;> simp [hp]

theorem ngDraw_frame (e : State) (hp : e.phase = .ngDraw) : NoWordFrame e (ngDraw e) :=
  ⟨rfl, rfl, rfl, rfl, rfl, rfl, rfl, rfl, rfl, .inr ⟨hp, candidate_isCandidate _⟩, nofun, .inl rfl⟩

theorem ngSend_frame (e : State) : NoWordFrame e (ngSend e) := by
  obtain ⟨_, rfl | rfl, h⟩ := ngSend_cases e <;> rw [h] <;> constructor <;> simp [pingOffered]

theorem ngSettle_frame (e : State) (hp : e.phase = .ngSettle) : NoWordFrame e (ngSettle e) := by
  obtain h | h := ngSettle_cases e <;> rw [h] <;> constructor <;> simp [hp]

theorem ngDrain_frame (e : State) (hp : e.phase = .ngDrain) : NoWordFrame e (ngDrain e) := by
  obtain ⟨_, h⟩ | h | h := ngDrain_cases e <;> rw [h] <;> constructor <;> simp [hp]

/-- An engine's turn takes the first word at the port of an idle block, or keeps the frame. -/
theorem EngineCase.takes_or_frame {e t : State} (h : EngineCase e t) :
    (e.phase = .idle ∧ ∃ w ws, e.env.port = w :: ws ∧
      ((∃ i, decode (.command w) = .ok i ∧ exec i (e.setPort ws) = .next t) ∨
        t = (e.setPort ws).refuse .illegalCommand)) ∨ NoWordFrame e t := by
  cases h with
  | wait _ _ ht => exact .inr (ht ▸ .refl e)
  | taken w ws i hp hw hd ht => exact .inl ⟨hp, w, ws, hw, .inl ⟨i, hd, ht⟩⟩
  | illegal w ws hp hw ht => exact .inl ⟨hp, w, ws, hw, .inr ht⟩
  | poll hp ht => exact .inr (ht ▸ exPoll_frame e hp)
  | draw hp ht => exact .inr (ht ▸ ngDraw_frame e hp)
  | ping _ ht => exact .inr (ht ▸ ngSend_frame e)
  | settle hp ht => exact .inr (ht ▸ ngSettle_frame e hp)
  | drain hp ht => exact .inr (ht ▸ ngDrain_frame e hp)
  | halted _ ht => exact .inr (ht ▸ .refl e)

/-! ### The arbiter -/

theorem Phase.Arbiter.ne_idle {p : Phase} (h : p.Arbiter) : p ≠ .idle := by
  obtain rfl | rfl | rfl | rfl := h <;> decide

theorem Phase.Arbiter.ne_exPoll {p : Phase} (h : p.Arbiter) : p ≠ .exPoll := by
  obtain rfl | rfl | rfl | rfl := h <;> decide

theorem engineCase_of_step {s e t : State} (hmoves : s.EngineMoves e) (hp : s.phase ≠ .halted)
    (h : step s = .next t) : EngineCase e t :=
  engineTurn_cases ((step_engine hmoves hp).symm.trans h)

/-- The arbiter writes its messages into `SCR` alone. -/
theorem arbiter_messages {e t : State} (h : EngineCase e t) (hp : e.phase.Arbiter) : t.m0 = e.m0 ∧ t.m1 = e.m1 := by
  cases h with
  | wait hidle => exact absurd hidle hp.ne_idle
  | taken _ _ _ hidle => exact absurd hidle hp.ne_idle
  | illegal _ _ hidle => exact absurd hidle hp.ne_idle
  | poll hpoll => exact absurd hpoll hp.ne_exPoll
  | halted hhalted => exact absurd hhalted hp.ne_halted
  | draw _ ht => exact ht ▸ ⟨rfl, rfl⟩
  | ping _ ht => obtain ⟨_, rfl | rfl, h⟩ := ngSend_cases e <;> rw [ht, h] <;> exact ⟨rfl, rfl⟩
  | settle _ ht => obtain h | h := ngSettle_cases e <;> rw [ht, h] <;> exact ⟨rfl, rfl⟩
  | drain _ ht => obtain ⟨_, h⟩ | h | h := ngDrain_cases e <;> rw [ht, h] <;> exact ⟨rfl, rfl⟩

/-- Settles O36: the micro-step takes no word, so it keeps the frame; `M0` and `M1` are `arbiter_messages`. The turn that
is used up stands in no register. -/
theorem arbiterLeavesTheHostsRegisters : Obligations.ArbiterLeavesTheHostsRegisters := by
  intro s e t hmoves harbiter hstep
  have hcase := engineCase_of_step hmoves harbiter.ne_halted hstep
  obtain ⟨ts, rfl⟩ := hmoves.eq_setTurns
  obtain ⟨hidle, -⟩ | hframe := hcase.takes_or_frame
  · exact absurd hidle harbiter.ne_idle
  · obtain ⟨hm0, hm1⟩ := arbiter_messages hcase harbiter
    exact ⟨hm0, hm1, hframe.timeout, hframe.cfg, hframe.active, hframe.txt, hframe.txtlen, hframe.xcmd, hframe.xdst,
      hframe.xerr, hframe.port⟩

end Sys2Proof.Machine
end

section
/-!
PROOFS. The statements about every step: the turns, what a step takes, delivers and offers, how `HASH`, `ACTIVE` and
`HALTED` change (00_scope.md R5, 10_state.md R14, R20, R26, 30_encoding.md R72, R73, 60_exceptions.md R226,
70_reset_and_hazards.md R250).
-/

namespace Sys2Proof.Machine

/-! ### Turns -/

theorem step_bus_delivers {s : State} {f : Frame} {ts : List Turn} (h : s.env.turns = .bus f :: ts) :
    step s = .next ((s.setTurns ts).deliver f) := by
  rw [step_bus h, busTurn_delivers]

theorem State.EngineMoves.of_turns {s : State} {ts : List Turn} (h : s.env.turns = .engine :: ts) :
    s.EngineMoves (s.setTurns ts) :=
  .inr ⟨ts, h, rfl⟩

/-- A halted block uses up the engine's turn. -/
theorem step_halted_engine {s : State} {ts : List Turn} (hp : s.phase = .halted)
    (h : s.env.turns = .engine :: ts) : step s = .next (s.setTurns ts) := by
  simp only [step, turn, h]
  exact engineTurn_halted hp

/-- An idle block whose turn it is runs the instruction of the first word at its port. -/
theorem step_runs {s e : State} {w : CommandWord} {ws : List CommandWord} {i : Instr} (hmoves : s.EngineMoves e)
    (hidle : s.phase = .idle) (hport : s.env.port = w :: ws) (hdecode : decode (.command w) = .ok i) :
    step s = exec i (e.setPort ws) := by
  rw [step_takes hmoves hidle hport]
  simp only [takeWord, hdecode]

/-- A frame that decodes has the meaning of its row, which is its arrival. -/
theorem exec_of_decodeBus {f : Frame} {i : Instr} (h : decode (.frame f) = .ok i) (s : State) :
    exec i s = .next (s.deliver f) := by
  have hbus : busTurn f s = exec i s := by simp only [busTurn, h]
  rw [← hbus, busTurn_delivers]

/-- A command word that decodes is placed at the port. -/
theorem wireOfBits_command {w : CommandWord} {i : Instr} (h : decode (.command w) = .ok i) :
    wireOfBits 32 w.toNat = .command w := by
  simp only [wireOfBits, BitVec.ofNat_toNat, BitVec.setWidth_eq, h, if_true]

/-- Settles O47, clause by clause; a placed word stands first at the port of an idle block whose turn is next. -/
theorem stepRunsTheDecodedInstruction : Obligations.StepRunsTheDecodedInstruction := by
  refine ⟨fun s e w ws i => step_runs, fun s e => step_waits, fun s f ts i hturns hdecode => ?_,
    fun s f ts x hturns _ => step_bus_delivers hturns, fun s w i hdecode => ?_⟩
  · rw [step_bus_delivers hturns, exec_of_decodeBus hdecode]
  · rw [State.withFetchWord, wireOfBits_command hdecode]
    exact step_runs (.of_turns rfl) rfl rfl hdecode

/-- Settles O54, turn by turn. -/
theorem haltedChangesNothingUntilReset : Obligations.HaltedChangesNothingUntilReset := fun _ hp =>
  ⟨fun hturns => step_stuck ⟨hp, hturns⟩, fun _ => step_reset, fun _ => step_halted_engine hp,
    fun _ _ => step_bus_delivers, fun _ _ => step_outside⟩

/-- Settles O55: with a turn scheduled, and in every phase but `HALTED`, one of the turns answers. -/
theorem onlyAHaltedBlockIsStuck : Obligations.OnlyAHaltedBlockIsStuck := by
  intro s
  cases hturns : s.env.turns with
  | nil =>
    by_cases hp : s.phase = .halted
    · exact .inr ⟨⟨hp, hturns⟩, step_stuck ⟨hp, hturns⟩⟩
    · obtain ⟨t, ht⟩ := engineTurn_next s
      exact .inl ⟨t, (step_engine (.inl ⟨hturns, rfl⟩) hp).trans ht⟩
  | cons x ts =>
    left
    cases x with
    | engine =>
      by_cases hp : s.phase = .halted
      · exact ⟨_, step_halted_engine hp hturns⟩
      · obtain ⟨t, ht⟩ := engineTurn_next (s.setTurns ts)
        exact ⟨t, (step_engine (.of_turns hturns) hp).trans ht⟩
    | reset => exact ⟨_, step_reset hturns⟩
    | bus f => exact ⟨_, step_bus_delivers hturns⟩
    | outside m => exact ⟨_, step_outside hturns⟩

/-- Settles O57: the reset of the block keeps the environment but for the turn and the pending responses. -/
theorem resetTurnAbandonsTheOperation : Obligations.ResetTurnAbandonsTheOperation := fun _ _ => step_reset

/-- Settles O60, agent by agent. -/
theorem agentsOutsideMoveTheirOwnPart : Obligations.AgentsOutsideMoveTheirOwnPart := by
  intro s x ts hturns e
  refine ⟨?presents, ?takes, ?receives, ?answers, ?empty, ?clock, ?random⟩
  case presents => exact fun w hx => step_outside (hx ▸ hturns)
  case takes => exact fun hx => step_outside (hx ▸ hturns)
  case receives => exact fun f hx => step_bus_delivers (hx ▸ hturns)
  case answers => exact fun b hx => step_outside (hx ▸ hturns)
  case empty => exact fun hx => step_outside (hx ▸ hturns)
  case clock => exact fun d hx => step_outside (hx ▸ hturns)
  case random => exact fun v hx => step_outside (hx ▸ hturns)

/-! ### What a step takes, delivers and offers -/

theorem Env.move_port {m : AgentMove} (h : ∀ w, m ≠ .hostPresents w) (e : Env) : (e.move m).port = e.port := by
  cases m with
  | hostPresents w => exact absurd rfl (h w)
  | _ => rfl

theorem State.EngineMoves.turns_ne {s e : State} (h : s.EngineMoves e) {x : Turn} (hx : x ≠ .engine)
    (ts : List Turn) : s.env.turns ≠ x :: ts := by
  obtain ⟨hnil, -⟩ | ⟨_, hcons, -⟩ := h
  · simp [hnil]
  · simp [hcons, hx.symm]

/-- Settles O49: the engine of a block that is not idle keeps `NoWordFrame`, and of the other turns only the host's
touches the port. -/
theorem busyBlockTakesNoWord : Obligations.BusyBlockTakesNoWord := by
  intro s t hbusy hstep
  cases step_cases hstep with
  | engine e hmoves hcase =>
    refine ⟨fun w ts hturns => (hmoves.turns_ne (x := .outside (.hostPresents w)) nofun ts hturns).elim,
      fun _ => ?_⟩
    obtain ⟨ts, rfl⟩ := hmoves.eq_setTurns
    obtain ⟨hidle, -⟩ | hframe := hcase.takes_or_frame
    · exact absurd hidle hbusy
    · exact hframe.port
  | reset ts hs ht => exact ⟨fun _ _ hturns => by simp [hs] at hturns, fun _ => by rw [ht]; rfl⟩
  | bus f ts hs ht => exact ⟨fun _ _ hturns => by simp [hs] at hturns, fun _ => by rw [ht]; rfl⟩
  | outside m ts hs ht =>
    refine ⟨fun w ts' hturns => ?_, fun hother => ?_⟩
    · obtain ⟨hm, -⟩ := List.cons.inj (hs.symm.trans hturns)
      rw [ht, Turn.outside.inj hm]
      rfl
    · have hnot_host (w : CommandWord) : m ≠ .hostPresents w := fun hm => hother w ts (hm ▸ hs)
      rw [ht, State.outside_env, Env.move_port hnot_host, State.setTurns_env_port]

/-- At most one response is delivered between `s` and `t`, and then the block is idle. -/
def RespondsAtMostOnce (s t : State) : Prop :=
  t.env.responses = s.env.responses ∨ ∃ r, t.env.responses = r :: s.env.responses ∧ t.phase = .idle

theorem EngineCase.responds {e t : State} (h : EngineCase e t) : RespondsAtMostOnce e t := by
  obtain ⟨-, w, ws, -, ⟨i, -, hexec⟩ | rfl⟩ | hframe := h.takes_or_frame
  · exact (exec_frame i (e.setPort ws) t hexec).responses
  · exact .inr ⟨_, rfl, rfl⟩
  · exact hframe.responses

/-- Settles O50: the engine alone responds; the offers are `step_offers`. -/
theorem stepRespondsAndOffersAtMostOnce : Obligations.StepRespondsAndOffersAtMostOnce := by
  intro s t hstep
  refine ⟨?_, step_offers hstep⟩
  cases step_cases hstep with
  | engine e hmoves hcase =>
    obtain ⟨ts, rfl⟩ := hmoves.eq_setTurns
    exact hcase.responds
  | reset _ _ ht => exact .inl (by simp [ht])
  | bus _ _ _ ht => exact .inl (by simp [ht])
  | outside _ _ _ ht => exact .inl (by simp [ht])

/-! ### `HASH` and `ACTIVE` -/

/-- What an engine's turn does to `HASH`: nothing, a draw, or a `SETHASH` before activation. -/
theorem EngineCase.hash {e t : State} (h : EngineCase e t) :
    t.hash = e.hash ∨ (e.phase = .ngDraw ∧ IsCandidate t.hash) ∨
    (e.phase = .idle ∧ e.active = false ∧
      ∃ w ws, e.env.port = w :: ws ∧ decode (.command w) = .ok (.sethash t.hash)) := by
  obtain ⟨hidle, w, ws, hport, ⟨i, hdecode, hexec⟩ | rfl⟩ | hframe := h.takes_or_frame
  · obtain hsame | ⟨hinactive, rfl⟩ := (exec_frame i (e.setPort ws) t hexec).hash
    · exact .inl hsame
    · exact .inr (.inr ⟨hidle, hinactive, w, ws, hport, hdecode⟩)
  · exact .inl rfl
  · exact hframe.hash.imp id .inl

theorem EngineCase.active {e t : State} (h : EngineCase e t) (hactive : e.active = true) : t.active = true := by
  obtain ⟨-, w, ws, -, ⟨i, -, hexec⟩ | rfl⟩ | hframe := h.takes_or_frame
  · obtain hsame | ⟨-, hset⟩ := (exec_frame i (e.setPort ws) t hexec).active
    · exact hsame.trans hactive
    · exact hset
  · exact hactive
  · exact hframe.active.trans hactive

/-- Settles O51: beside the engine's turn only a reset writes `HASH`. -/
theorem hashChangesOnlyInThreeWays : Obligations.HashChangesOnlyInThreeWays := by
  intro s t hstep hchanged
  cases step_cases hstep with
  | engine e hmoves hcase =>
    obtain ⟨ts, rfl⟩ := hmoves.eq_setTurns
    exact .inr (hcase.hash.resolve_left hchanged)
  | reset ts hs ht => exact .inl ⟨ts, hs, by rw [ht]; rfl⟩
  | bus _ _ _ ht => exact absurd (by rw [ht]; rfl) hchanged
  | outside _ _ _ ht => exact absurd (by rw [ht]; rfl) hchanged

/-- Settles O52: an active block refuses `SETHASH`, and a candidate is not 0. -/
theorem identificationIsOneWay : Obligations.IdentificationIsOneWay := by
  intro s t hactive hhash hno_reset hstep
  cases step_cases hstep with
  | engine e hmoves hcase =>
    obtain ⟨ts, rfl⟩ := hmoves.eq_setTurns
    refine ⟨hcase.active hactive, ?_⟩
    obtain hsame | ⟨-, hcandidate⟩ | ⟨-, hinactive, -⟩ := hcase.hash
    · rw [hsame]
      exact hhash
    · exact hcandidate.ne_zero
    · exact absurd hactive (by simpa using hinactive)
  | reset ts hs _ => exact absurd hs (hno_reset ts)
  | bus _ _ _ ht => exact ht ▸ ⟨hactive, hhash⟩
  | outside _ _ _ ht => exact ht ▸ ⟨hactive, hhash⟩

/-! ### `HALTED` -/

/-- An `EXCH` that ends in `HALTED` had its stamped frame rejected under the policy `HALT`, and answers nothing. -/
theorem execExch_halts {a b : MReg} {s t : State} (h : execExch a b s = .next t) (hp : t.phase = .halted) :
    s.cfg.getLsbD 2 = true ∧
    t.env.offers = ⟨encodeFrame { s.msg a with hash := s.hash }, false⟩ :: s.env.offers ∧
    t.env.responses = s.env.responses := by
  obtain ⟨s2, rfl, ⟨_, rfl⟩ | ⟨_, _, rfl⟩ | ⟨hrejected, hpolicy, rfl⟩⟩ := execExch_cases h
  · exact absurd hp nofun
  · exact absurd hp nofun
  · refine ⟨hpolicy, ?_, by simp⟩
    simp [hrejected]

/-- Settles O53: of all turns only that of a taken word can end in `HALTED`, and of all instructions only `EXCH`. -/
theorem haltedIsEnteredOnlyByExch : Obligations.HaltedIsEnteredOnlyByExch := by
  intro s t hstep hnot_halted hhalted
  cases step_cases hstep with
  | engine e hmoves hcase =>
    obtain ⟨ts, rfl⟩ := hmoves.eq_setTurns
    obtain ⟨hidle, w, ws, hport, ⟨i, hdecode, hexec⟩ | rfl⟩ | hframe := hcase.takes_or_frame
    · obtain hsame | hidle' | hdraw | ⟨a, b, rfl⟩ := (exec_frame i ((s.setTurns ts).setPort ws) t hexec).phase
      · exact absurd (hsame.symm.trans hhalted) hnot_halted
      · simp [hidle'] at hhalted
      · simp [hdraw] at hhalted
      · obtain ⟨hpolicy, hoffers, hresponses⟩ := execExch_halts hexec hhalted
        have hmsg : ((s.setTurns ts).setPort ws).msg a = s.msg a := by simp
        rw [hmsg] at hoffers
        exact ⟨hidle, hpolicy, w, ws, a, b, hport, hdecode, hoffers, hresponses⟩
    · simp at hhalted
    · exact absurd (hframe.halted hhalted) hnot_halted
  | reset _ _ ht => simp [ht] at hhalted
  | bus _ _ _ ht =>
    subst ht
    exact absurd hhalted hnot_halted
  | outside _ _ _ ht =>
    subst ht
    exact absurd hhalted hnot_halted

end Sys2Proof.Machine
end

section
/-!
PROOFS. The invariant of the machine: it holds after reset and every step keeps it (10_state.md R12, R13, R17, R20 to R25,
R30; 42_exchange.md R127; 43_negotiation.md R142, R146; 60_exceptions.md R226). First the bounds, which no operation
breaks in any phase, then the clauses that speak of `PHASE`.
-/

namespace Sys2Proof.Machine

/-! ### The bounds -/

/-- The clauses of the invariant that do not speak of `PHASE`: messages, text length, pad bytes of `SCR`. -/
structure State.Bounded (s : State) : Prop where
  lenM0 : s.m0.len ≤ 8
  lenM1 : s.m1.len ≤ 8
  lenScr : s.scr.len ≤ 8
  textLen : s.txtlen ≤ 35
  scrPad : ∀ k : Fin 8, s.scr.len.toNat ≤ k.val → s.scr.data[k] = 0

theorem State.Inv.bounded {s : State} (h : s.Inv) : s.Bounded := ⟨h.lenM0, h.lenM1, h.lenScr, h.textLen, h.scrPad⟩

/-- The bounds speak of four registers. -/
theorem State.Bounded.congr {s t : State} (h : s.Bounded) (hm0 : t.m0 = s.m0) (hm1 : t.m1 = s.m1) (hscr : t.scr = s.scr)
    (htxtlen : t.txtlen = s.txtlen) : t.Bounded :=
  ⟨hm0 ▸ h.lenM0, hm1 ▸ h.lenM1, hscr ▸ h.lenScr, htxtlen ▸ h.textLen, hscr ▸ h.scrPad⟩

theorem State.Bounded.len {s : State} (h : s.Bounded) (a : MReg) : (s.msg a).len ≤ 8 := by
  cases a
  · exact h.lenM0
  · exact h.lenM1

theorem State.Bounded.setMsg {s : State} (h : s.Bounded) (a : MReg) {m : Message} (hm : m.len ≤ 8) :
    (s.setMsg a m).Bounded := by
  cases a
  · exact ⟨hm, h.lenM1, h.lenScr, h.textLen, h.scrPad⟩
  · exact ⟨h.lenM0, hm, h.lenScr, h.textLen, h.scrPad⟩

theorem State.Bounded.stamp {s : State} (h : s.Bounded) (a : MReg) : (s.stamp a).Bounded :=
  h.setMsg a (h.len a)

theorem State.Bounded.setTxtlen {s : State} (h : s.Bounded) (t : TextBuf) {n : BitVec 6} (hn : n ≤ 35) :
    { s with txt := t, txtlen := n }.Bounded :=
  ⟨h.lenM0, h.lenM1, h.lenScr, hn, h.scrPad⟩

theorem State.Bounded.respond {s : State} (h : s.Bounded) (ok : Bool) (err : BitVec 3) (val : BitVec 32) :
    (s.respond ok err val).Bounded :=
  h.congr rfl rfl rfl rfl

theorem State.Bounded.refuse {s : State} (h : s.Bounded) (e : Cause) : (s.refuse e).Bounded :=
  h.congr rfl rfl rfl rfl

theorem State.Bounded.polled {s : State} (h : s.Bounded) : s.polled.Bounded :=
  h.congr rfl rfl rfl rfl

/-- A message that may stand in `SCR`: of legal length, its pad bytes 0. -/
structure Message.Padded (m : Message) : Prop where
  len : m.len ≤ 8
  pad : ∀ k : Fin 8, m.len.toNat ≤ k.val → m.data[k] = 0

theorem Message.cleared_padded : Message.cleared.Padded :=
  ⟨by decide, fun k _ => by simp [Message.cleared, Payload.zero]⟩

theorem decodeFrame_padded (f : Frame) : (decodeFrame f).Padded :=
  ⟨saturateLen_le f.dlen, padZero_pad _ _⟩

theorem pingMessage_padded (hash : BitVec 16) : (pingMessage hash).Padded :=
  ⟨Message.cleared_padded.len, Message.cleared_padded.pad⟩

theorem State.Bounded.setScr {s : State} (h : s.Bounded) {m : Message} (hm : m.Padded) : (s.setScr m).Bounded :=
  ⟨h.lenM0, h.lenM1, hm.len, h.textLen, hm.pad⟩

/-- `LDF` writes no length above the maximum it has checked. -/
theorem Field.write_len_le {f : Field} {v : BitVec 16} {m : Message} (hm : m.len ≤ 8) (hmax : v.toNat ≤ f.max) :
    (f.write v m).len ≤ 8 := by
  cases f with
  | len =>
    rw [Field.write_len]
    have hv : v.toNat ≤ 8 := hmax
    bv_omega
  | _ => exact hm

/-- No instruction breaks the bounds. -/
theorem exec_bounded {i : Instr} {s t : State} (hs : s.Bounded) (h : exec i s = .next t) : t.Bounded := by
  cases i with
  | nop => cases h; exact hs.respond _ _ _
  | clear a => cases h; exact (hs.setMsg a (by decide)).respond _ _ _
  | ldf a sel imm =>
    rw [exec_ldf] at h
    cases h
    cases hf : fieldOf sel with
    | none => rw [loadField_unnamed a sel imm s hf]; exact hs.refuse _
    | some f =>
      by_cases hmax : imm.toNat ≤ f.max
      · rw [loadField_named a sel imm s f hf hmax]
        exact (hs.setMsg a (Field.write_len_le (hs.len a) hmax)).respond _ _ _
      · rw [loadField_over a sel imm s f hf (Nat.lt_of_not_le hmax)]
        exact hs.refuse _
  | rdf a sel =>
    rw [exec_rdf] at h
    cases h
    cases hf : fieldOf sel with
    | none => rw [readField_unnamed a sel s hf]; exact hs.refuse _
    | some f => rw [readField_named a sel s f hf]; exact hs.respond _ _ _
  | send a =>
    rw [exec_send] at h
    cases h
    cases s.txAnswer <;> exact (hs.stamp a).congr rfl rfl rfl rfl
  | recv a =>
    rw [exec_recv] at h
    cases h
    cases s.rxAnswer with
    | none => exact hs.polled.respond _ _ _
    | some f => exact (hs.polled.setMsg a (decodeFrame_padded f).len).respond _ _ _
  | exch a b =>
    have hbegin : (exchBegin a b s).Bounded := hs.congr rfl rfl rfl rfl
    obtain ⟨s2, rfl, ⟨_, rfl⟩ | ⟨_, _, rfl⟩ | ⟨_, _, rfl⟩⟩ := execExch_cases h <;>
      exact (hbegin.stamp a).congr rfl rfl rfl rfl
  | negotiate => cases h; exact hs.congr rfl rfl rfl rfl
  | activate =>
    rw [exec_activate] at h
    cases h
    rw [activated]
    split <;> exact hs.congr rfl rfl rfl rfl
  | sethash imm =>
    rw [exec_sethash] at h
    cases h
    rw [assignHash]
    split <;> exact hs.congr rfl rfl rfl rfl
  | settmo imm => cases h; exact hs.congr rfl rfl rfl rfl
  | setcfg cfg => cases h; exact hs.congr rfl rfl rfl rfl
  | rdsr sel =>
    rw [exec_rdsr] at h
    cases h
    rw [readSysReg]
    split <;> exact hs.congr rfl rfl rfl rfl
  | clrerr mask => cases h; exact hs.congr rfl rfl rfl rfl
  | txenc a =>
    rw [exec_txenc] at h
    cases h
    have hlength := encodeText_length (s.msg a) (hs.len a)
    have hlen : (s.msg a).len.toNat ≤ 8 := hs.len a
    refine (hs.setTxtlen _ ?_).respond _ _ _
    change (BitVec.ofNat 6 _).toNat ≤ 35
    rw [hlength, BitVec.toNat_ofNat, Nat.mod_eq_of_lt (by omega)]
    omega
  | txdec a =>
    rw [exec_txdec] at h
    cases h
    cases hdecode : decodeText s.text with
    | none => exact (hs.setMsg a (by decide)).refuse _
    | some m =>
      obtain ⟨-, -, -, -, hlen, -⟩ := (decodeText_iff_fields s.text m).mp hdecode
      exact (hs.setMsg a hlen).respond _ _ _
  | ldt idx ch =>
    rw [exec_ldt] at h
    cases h
    rw [loadChar]
    split <;> exact hs.congr rfl rfl rfl rfl
  | rdt idx =>
    rw [exec_rdt] at h
    cases h
    rw [readChar]
    split <;> exact hs.congr rfl rfl rfl rfl
  | settl n =>
    rw [exec_settl] at h
    cases h
    by_cases hn : n.toNat ≤ 35
    · rw [setTextLen_fits n s hn]
      exact (hs.setTxtlen s.txt hn).respond _ _ _
    · rw [setTextLen_over n s (Nat.lt_of_not_le hn)]
      exact hs.refuse _
  | _ => cases h; exact hs.congr rfl rfl rfl rfl

/-! ### The clauses on `PHASE` -/

/-- An idle block meets every clause on `PHASE`. -/
theorem State.Inv.of_idle {t : State} (hb : t.Bounded) (hp : t.phase = .idle) (hid : t.active = true → t.hash ≠ 0) :
    t.Inv where
  lenM0 := hb.lenM0
  lenM1 := hb.lenM1
  lenScr := hb.lenScr
  textLen := hb.textLen
  scrPad := hb.scrPad
  identity h := .inl (hid h)
  probing h := by simp [Phase.Probing, hp] at h
  arbiterXerr h := by simp [Phase.Arbiter, hp] at h
  pollXerr h := by simp [hp] at h
  halted h := by simp [hp] at h

/-- A block that is about to draw has no pending code. -/
theorem State.Inv.of_ngDraw {t : State} (hb : t.Bounded) (hp : t.phase = .ngDraw) (hxerr : t.xerr = 0) : t.Inv where
  lenM0 := hb.lenM0
  lenM1 := hb.lenM1
  lenScr := hb.lenScr
  textLen := hb.textLen
  scrPad := hb.scrPad
  identity _ := .inr hp
  probing h := by simp [Phase.Probing, hp] at h
  arbiterXerr _ := hxerr
  pollXerr h := by simp [hp] at h
  halted h := by simp [hp] at h

theorem Phase.Probing.ne {p : Phase} (h : p.Probing) : p ≠ .idle ∧ p ≠ .exPoll ∧ p ≠ .ngDraw ∧ p ≠ .halted := by
  obtain rfl | rfl | rfl := h <;> decide

/-- A block that probes holds a candidate in `HASH`, which is not 0. -/
theorem State.Inv.of_probing {t : State} (hb : t.Bounded) (hp : t.phase.Probing) (hhash : IsCandidate t.hash)
    (hxerr : t.xerr = 0) : t.Inv where
  lenM0 := hb.lenM0
  lenM1 := hb.lenM1
  lenScr := hb.lenScr
  textLen := hb.textLen
  scrPad := hb.scrPad
  identity _ := .inl hhash.ne_zero
  probing _ := hhash
  arbiterXerr _ := hxerr
  pollXerr h := absurd h hp.ne.2.1
  halted h := absurd h hp.ne.2.2.2

/-- A block that polls or is halted after a rejected send. -/
theorem State.Inv.of_exchange {t : State} (hb : t.Bounded) (hid : t.active = true → t.hash ≠ 0)
    (hp : t.phase = .exPoll ∧ (t.xerr = 0 ∨ t.xerr = 1 ∧ t.err.getLsbD 0 = true) ∨
      t.phase = .halted ∧ t.xerr = 1 ∧ t.err.getLsbD 0 = true ∧ t.sfpolHalt = true) : t.Inv where
  lenM0 := hb.lenM0
  lenM1 := hb.lenM1
  lenScr := hb.lenScr
  textLen := hb.textLen
  scrPad := hb.scrPad
  identity h := .inl (hid h)
  probing h := by rcases hp with ⟨hp, -⟩ | ⟨hp, -⟩ <;> simp [Phase.Probing, hp] at h
  arbiterXerr h := by rcases hp with ⟨hp, -⟩ | ⟨hp, -⟩ <;> simp [Phase.Arbiter, hp] at h
  pollXerr h := by
    obtain ⟨-, hpending⟩ | ⟨hp, -⟩ := hp
    · exact hpending
    · simp [hp] at h
  halted h := by
    obtain ⟨hp, -⟩ | ⟨-, hhalted⟩ := hp
    · simp [hp] at h
    · exact hhalted

/-- The invariant does not speak of the environment. -/
theorem State.Inv.setEnv {s : State} (h : s.Inv) (env : Env) : { s with env := env }.Inv :=
  ⟨h.lenM0, h.lenM1, h.lenScr, h.textLen, h.scrPad, h.identity, h.probing, h.arbiterXerr, h.pollXerr, h.halted⟩

/-- An active block is identified when it is not about to draw. -/
theorem State.Inv.identified {s : State} (h : s.Inv) (hp : s.phase ≠ .ngDraw) (hactive : s.active = true) :
    s.hash ≠ 0 :=
  (h.identity hactive).resolve_right hp

/-! ### Instructions taken in `IDLE` -/

theorem errWith_sendFailure (err : BitVec 6) : (errWith err .sendFailure).getLsbD 0 = true := by
  rw [errWith_getLsbD err .sendFailure 0 (by decide)]
  simp [causeBit]

theorem execExch_inv {a b : MReg} {s t : State} (hs : s.Inv) (hidle : s.phase = .idle)
    (h : exec (.exch a b) s = .next t) : t.Inv := by
  have hb : t.Bounded := exec_bounded hs.bounded h
  have hid : s.active = true → s.hash ≠ 0 := hs.identified (by simp [hidle])
  obtain ⟨s2, rfl, ⟨_, rfl⟩ | ⟨_, _, rfl⟩ | ⟨_, hpolicy, rfl⟩⟩ := execExch_cases h
  · exact .of_exchange hb (by simpa using hid) (.inl ⟨rfl, .inl (by simp)⟩)
  · exact .of_exchange hb (by simpa using hid) (.inl ⟨rfl, .inr ⟨rfl, errWith_sendFailure _⟩⟩)
  · refine .of_exchange hb (by simpa using hid) (.inr ⟨rfl, rfl, errWith_sendFailure _, ?_⟩)
    simpa [State.sfpolHalt] using hpolicy

theorem execActivate_inv {s t : State} (hs : s.Inv) (h : exec .activate s = .next t) : t.Inv := by
  have hb : t.Bounded := exec_bounded hs.bounded h
  by_cases hzero : s.hash = 0
  · rw [exec_activate, activated_unidentified { s with active := true, xerr := 0 } hzero] at h
    cases h
    exact .of_ngDraw hb rfl rfl
  · rw [exec_activate, activated_identified { s with active := true, xerr := 0 } hzero] at h
    cases h
    exact .of_idle hb rfl fun _ => hzero

/-- The instructions that can keep the block busy. -/
def StartsOperation (i : Instr) : Prop := i = .negotiate ∨ i = .activate ∨ ∃ a b, i = .exch a b

theorem loadField_phase (a : MReg) (sel : BitVec 5) (imm : BitVec 16) (s : State) :
    (loadField a sel imm s).phase = .idle := by
  rw [loadField]
  split
  · rfl
  · split <;> rfl

theorem readField_phase (a : MReg) (sel : BitVec 5) (s : State) : (readField a sel s).phase = .idle := by
  rw [readField]
  split <;> rfl

theorem sendAnswered_phase (f : Frame) (acc : Bool) (s : State) : (sendAnswered f acc s).phase = .idle := by
  cases acc <;> rfl

theorem recvAnswered_phase (a : MReg) (r : Option Frame) (s : State) : (recvAnswered a r s).phase = .idle := by
  cases r <;> rfl

theorem assignHash_phase (imm : BitVec 16) (s : State) : (assignHash imm s).phase = .idle := by
  rw [assignHash]
  split <;> rfl

theorem readSysReg_phase (sel : BitVec 5) (s : State) : (readSysReg sel s).phase = .idle := by
  rw [readSysReg]
  split <;> rfl

theorem txdecAnswered_phase (a : MReg) (r : Option Message) (s : State) : (txdecAnswered a r s).phase = .idle := by
  cases r <;> rfl

theorem loadChar_phase (idx : BitVec 6) (ch : Byte) (s : State) : (loadChar idx ch s).phase = .idle := by
  rw [loadChar]
  split <;> rfl

theorem readChar_phase (idx : BitVec 6) (s : State) : (readChar idx s).phase = .idle := by
  rw [readChar]
  split <;> rfl

theorem setTextLen_phase (n : BitVec 6) (s : State) : (setTextLen n s).phase = .idle := by
  rw [setTextLen]
  split <;> rfl

/-- Every other instruction completes when it is taken; a frame that arrives leaves the block idle. -/
theorem exec_completes {i : Instr} {s t : State} (hi : ¬StartsOperation i) (hidle : s.phase = .idle)
    (h : exec i s = .next t) : t.phase = .idle := by
  cases i with
  | negotiate => exact absurd (.inl rfl) hi
  | activate => exact absurd (.inr (.inl rfl)) hi
  | exch a b => exact absurd (.inr (.inr ⟨a, b, rfl⟩)) hi
  | nop | clear | settmo | setcfg | clrerr | txenc => cases h; rfl
  | ldf a sel imm => cases h; exact loadField_phase a sel imm s
  | rdf a sel => cases h; exact readField_phase a sel s
  | send a => cases h; exact sendAnswered_phase _ _ _
  | recv a => cases h; exact recvAnswered_phase a _ _
  | sethash imm => cases h; exact assignHash_phase imm s
  | rdsr sel => cases h; exact readSysReg_phase sel s
  | txdec a => cases h; exact txdecAnswered_phase a _ s
  | ldt idx ch => cases h; exact loadChar_phase idx ch s
  | rdt idx => cases h; exact readChar_phase idx s
  | settl n => cases h; exact setTextLen_phase n s
  | busSystem | busSpeed | busDirection | busFunction | busReadConfig | busWriteConfig | busAccessory | busPing =>
    cases h; exact hidle

theorem exec_inv {i : Instr} {s t : State} (hs : s.Inv) (hidle : s.phase = .idle) (h : exec i s = .next t) :
    t.Inv := by
  have hb : t.Bounded := exec_bounded hs.bounded h
  by_cases hi : StartsOperation i
  · obtain rfl | rfl | ⟨a, b, rfl⟩ := hi
    · cases h
      exact .of_ngDraw hb rfl rfl
    · exact execActivate_inv hs h
    · exact execExch_inv hs hidle h
  · refine .of_idle hb (exec_completes hi hidle h) fun hactive => ?_
    have hframe := exec_frame i s t h
    obtain hkept | ⟨rfl, -⟩ := hframe.active
    · have hwas_active : s.active = true := hkept.symm.trans hactive
      obtain hsame | ⟨hinactive, -⟩ := hframe.hash
      · rw [hsame]
        exact hs.identified (by simp [hidle]) hwas_active
      · simp [hwas_active] at hinactive
    · exact absurd (.inr (.inl rfl)) hi

/-! ### Micro-steps -/

theorem exPoll_inv {e : State} (he : e.Inv) (hp : e.phase = .exPoll) : (exPoll e).Inv := by
  have hid : e.active = true → e.hash ≠ 0 := he.identified (by simp [hp])
  have hb : e.clockRead.polled.Bounded := he.bounded.congr rfl rfl rfl rfl
  obtain ⟨_, h⟩ | h | ⟨f, h⟩ | ⟨f, h⟩ := exPoll_cases e <;> rw [h]
  · exact .of_idle (he.bounded.congr rfl rfl rfl rfl) rfl hid
  · exact he.setEnv _
  · have hf := decodeFrame_padded f
    exact .of_idle (((hb.setScr hf).setMsg _ hf.len).respond _ _ _) rfl (by simpa using hid)
  · exact .of_exchange (hb.setScr (decodeFrame_padded f)) hid (.inl ⟨hp, he.pollXerr hp⟩)

theorem ngDraw_inv {e : State} (he : e.Inv) (hp : e.phase = .ngDraw) : (ngDraw e).Inv :=
  .of_probing (he.bounded.congr rfl rfl rfl rfl) (.inl rfl) (candidate_isCandidate _) (he.arbiterXerr (.inl hp))

theorem ngSend_inv {e : State} (he : e.Inv) (hp : e.phase = .ngSend) : (ngSend e).Inv := by
  have hb := he.bounded.setScr (pingMessage_padded e.hash)
  obtain ⟨_, rfl | rfl, h⟩ := ngSend_cases e <;> rw [h] <;>
    exact .of_probing (hb.congr rfl rfl rfl rfl) (.inr (.inl rfl)) (he.probing (.inl hp))
      (he.arbiterXerr (.inr (.inl hp)))

theorem ngSettle_inv {e : State} (he : e.Inv) (hp : e.phase = .ngSettle) : (ngSettle e).Inv := by
  obtain h | h := ngSettle_cases e <;> rw [h]
  · exact .of_probing (he.bounded.congr rfl rfl rfl rfl) (.inr (.inr rfl)) (he.probing (.inr (.inl hp)))
      (he.arbiterXerr (.inr (.inr (.inl hp))))
  · exact he.setEnv _

theorem ngDrain_inv {e : State} (he : e.Inv) (hp : e.phase = .ngDrain) : (ngDrain e).Inv := by
  have hprobing : e.phase.Probing := .inr (.inr hp)
  have hxerr : e.xerr = 0 := he.arbiterXerr (.inr (.inr (.inr hp)))
  obtain ⟨f, h⟩ | h | h := ngDrain_cases e <;> rw [h]
  · exact .of_probing ((he.bounded.setScr (decodeFrame_padded f)).congr rfl rfl rfl rfl) hprobing
      (he.probing hprobing) hxerr
  · exact .of_ngDraw (he.bounded.congr rfl rfl rfl rfl) rfl hxerr
  · exact .of_idle (he.bounded.congr rfl rfl rfl rfl) rfl fun _ => (he.probing hprobing).ne_zero

theorem EngineCase.inv {e t : State} (h : EngineCase e t) (he : e.Inv) : t.Inv := by
  cases h with
  | wait _ _ ht => exact ht ▸ he
  | taken w ws i hp _ _ ht => exact exec_inv (s := e.setPort ws) (he.setEnv _) hp ht
  | illegal w ws hp _ ht =>
    exact ht ▸ .of_idle (he.bounded.congr rfl rfl rfl rfl) rfl (he.identified (by simp [hp]))
  | poll hp ht => exact ht ▸ exPoll_inv he hp
  | draw hp ht => exact ht ▸ ngDraw_inv he hp
  | ping hp ht => exact ht ▸ ngSend_inv he hp
  | settle hp ht => exact ht ▸ ngSettle_inv he hp
  | drain hp ht => exact ht ▸ ngDrain_inv he hp
  | halted _ ht => exact ht ▸ he

/-! ### The obligations -/

/-- Settles O59: the block is idle and not active, and its messages are cleared. -/
theorem invariantHoldsAtReset : Obligations.InvariantHoldsAtReset :=
  .of_idle ⟨by decide, by decide, by decide, by decide, Message.cleared_padded.pad⟩ rfl nofun

/-- Settles O58: the engine's turn keeps the invariant micro-step by micro-step, a reset establishes it, and the other
turns touch no register. -/
theorem everyStepKeepsTheInvariant : Obligations.EveryStepKeepsTheInvariant := by
  intro s t hs hstep
  cases step_cases hstep with
  | engine e hmoves hcase =>
    obtain ⟨ts, rfl⟩ := hmoves.eq_setTurns
    exact hcase.inv (hs.setEnv _)
  | reset _ _ ht => exact ht ▸ State.Inv.setEnv invariantHoldsAtReset _
  | bus _ _ _ ht => exact ht ▸ hs.setEnv _
  | outside _ _ _ ht => exact ht ▸ hs.setEnv _

end Sys2Proof.Machine
end

section
/-!
PROOFS. Runs of the engine alone: a drain pass to its decision (43_negotiation.md R145, R147) and an exchange to its first
match (42_exchange.md R128, R131), each by induction on the answers that wait.
-/

namespace Sys2Proof.Machine

/-- With no turn scheduled the engine moves, and no turn is used up. -/
theorem State.EngineMoves.unscheduled {s : State} (h : s.env.turns = []) : s.EngineMoves s := .inl ⟨h, rfl⟩

theorem run_one {s t : State} (h : step s = .next t) : Sys2Proof.core.run 1 s = .next t := run_succ h

/-! ### A drain pass -/

/-- `CONTESTED` after the frames `fs` have been compared with the candidate (R145). -/
def contestedAfter (s : State) (fs : List Frame) : Bool :=
  s.contested || fs.any fun f => (decodeFrame f).hash == s.hash

/-- What a drain pass leaves that ends with `CONTESTED = c` and with the answers `rest` to come. -/
structure DrainEnd (c : Bool) (rest : List (Option Frame)) (s t : State) : Prop where
  hash : t.hash = s.hash
  rx : t.env.rx = rest
  m0 : t.m0 = s.m0
  m1 : t.m1 = s.m1
  accepted : c = false → t.phase = .idle ∧ t.env.responses = ⟨true, 0, s.hash.zeroExtend 32⟩ :: s.env.responses
  drawsAgain : c = true → t.phase = .ngDraw ∧ t.env.responses = s.env.responses

/-- The poll that finds no frame decides. -/
theorem drain_decides {s : State} {rest : List (Option Frame)} (hp : s.phase = .ngDrain) (hturns : s.env.turns = [])
    (hrx : s.env.rx = none :: rest) : ∃ t, step s = .next t ∧ DrainEnd s.contested rest s t := by
  have hanswer : s.rxAnswer = none := rxAnswer_of_cons hrx
  have hrest : s.polled.env.rx = rest := by rw [State.polled_env_rx, hrx, List.tail_cons]
  refine ⟨ngDrain s, step_ngDrain (.unscheduled hturns) hp, ?_⟩
  rw [ngDrain_of_answer hanswer]
  cases hc : s.contested with
  | true =>
    rw [drainAnswered_contested s.polled hc]
    exact ⟨rfl, hrest, rfl, rfl, nofun, fun _ => ⟨rfl, rfl⟩⟩
  | false =>
    rw [drainAnswered_accepts s.polled hc]
    exact ⟨rfl, hrest, rfl, rfl, fun _ => ⟨rfl, rfl⟩, nofun⟩

/-- A drain pass takes all the frames that wait and then decides. -/
theorem run_drain (fs : List Frame) (rest : List (Option Frame)) (s : State) (hp : s.phase = .ngDrain)
    (hturns : s.env.turns = []) (hrx : s.env.rx = fs.map some ++ none :: rest) :
    ∃ t, Sys2Proof.core.run (fs.length + 1) s = .next t ∧ DrainEnd (contestedAfter s fs) rest s t := by
  induction fs generalizing s with
  | nil =>
    obtain ⟨t, hstep, hend⟩ := drain_decides hp hturns hrx
    refine ⟨t, run_one hstep, ?_⟩
    rwa [contestedAfter, List.any_nil, Bool.or_false]
  | cons f fs ih =>
    have hanswer : s.rxAnswer = some f := rxAnswer_of_cons hrx
    obtain ⟨u, hu⟩ : ∃ u, u = drainAnswered (some f) s.polled := ⟨_, rfl⟩
    have hstep : step s = .next u := by
      rw [hu, ← ngDrain_of_answer hanswer]
      exact step_ngDrain (.unscheduled hturns) hp
    rw [drainAnswered_some] at hu
    have hrx_u : u.env.rx = fs.map some ++ none :: rest := by
      rw [hu, State.polled_env_rx, hrx]
      rfl
    have hcontested : contestedAfter u fs = contestedAfter s (f :: fs) := by
      rw [hu, contestedAfter, contestedAfter, List.any_cons, ← Bool.or_assoc]
      rfl
    obtain ⟨t, hrun, hend⟩ := ih u (hu ▸ hp) (hu ▸ hturns) hrx_u
    refine ⟨t, (run_succ hstep).trans hrun, ?_⟩
    rw [hcontested] at hend
    subst hu
    exact ⟨hend.hash, hend.rx, hend.m0, hend.m1, hend.accepted, hend.drawsAgain⟩

theorem contestedAfter_eq_false {s : State} {fs : List Frame} (hfree : s.contested = false)
    (hnone : ∀ f ∈ fs, (decodeFrame f).hash ≠ s.hash) : contestedAfter s fs = false := by
  simpa [contestedAfter, hfree] using hnone

theorem contestedAfter_eq_true {s : State} {fs : List Frame} (hsome : ∃ f ∈ fs, (decodeFrame f).hash = s.hash) :
    contestedAfter s fs = true := by
  simp [contestedAfter, hsome]

/-- Settles O35: the pass ends with `CONTESTED` as the frames make it. -/
theorem drainPassDecides : Obligations.DrainPassDecides := by
  intro s fs rest hp hturns hfree hrx
  obtain ⟨t, hrun, hend⟩ := run_drain fs rest s hp hturns hrx
  exact ⟨t, hrun, hend.hash, hend.rx, hend.m0, hend.m1,
    fun hnone => hend.accepted (contestedAfter_eq_false hfree hnone),
    fun hsome => hend.drawsAgain (contestedAfter_eq_true hsome)⟩

/-! ### An exchange within its budget -/

/-- The answer `r` of a poll does not end the exchange (R128). -/
def PassesOver (s : State) (r : Option Frame) : Prop :=
  ∀ f, r = some f → ¬((decodeFrame f).cmd = s.xcmd ∧ (decodeFrame f).resp = true)

/-- An exchange is in progress, the engine alone moves, and the next clock jump and the next answer are known. -/
structure Polling (d : BitVec 32) (ds : List (BitVec 32)) (r : Option Frame) (rs : List (Option Frame)) (s : State) :
    Prop where
  phase : s.phase = .exPoll
  turns : s.env.turns = []
  clk : s.env.clk = d :: ds
  rx : s.env.rx = r :: rs
  budget : (s.env.now + d - s.t0).toNat < s.timeout.toNat

/-- What a poll leaves that does not end the exchange: the exchange goes on as captured, with one answer and one clock
jump less. -/
structure PolledOn (d : BitVec 32) (ds : List (BitVec 32)) (rs : List (Option Frame)) (s t : State) : Prop where
  phase : t.phase = .exPoll
  turns : t.env.turns = []
  clk : t.env.clk = ds
  rx : t.env.rx = rs
  now : t.env.now = s.env.now + d
  t0 : t.t0 = s.t0
  timeout : t.timeout = s.timeout
  xcmd : t.xcmd = s.xcmd
  xdst : t.xdst = s.xdst
  xerr : t.xerr = s.xerr
  err : t.err = s.err
  msg : ∀ a, t.msg a = s.msg a
  responses : t.env.responses = s.env.responses

section
variable {d : BitVec 32} {ds : List (BitVec 32)} {r : Option Frame} {rs : List (Option Frame)} {s : State}

/-- Within the budget the micro-step polls. -/
theorem Polling.step_eq (h : Polling d ds r rs s) : step s = .next (exchPolled r s.clockRead.polled) := by
  have hleft : ¬s.timeout.toNat ≤ (s.clock - s.t0).toNat := by
    rw [clock_of_cons h.clk]
    exact Nat.not_le.mpr h.budget
  have hanswer : s.clockRead.rxAnswer = r := rxAnswer_of_cons h.rx
  rw [step_exPoll (.unscheduled h.turns) h.phase, exPoll_polls s hleft, hanswer]

theorem Polling.polledOn (h : Polling d ds r rs s) : PolledOn d ds rs s s.clockRead.polled where
  phase := h.phase
  turns := h.turns
  clk := by rw [State.polled_env_clk, State.clockRead_env_clk, h.clk, List.tail_cons]
  rx := by rw [State.polled_env_rx, State.clockRead_env_rx, h.rx, List.tail_cons]
  now := clock_of_cons h.clk
  t0 := rfl
  timeout := rfl
  xcmd := rfl
  xdst := rfl
  xerr := rfl
  err := rfl
  msg a := by simp
  responses := rfl

/-- The poll writes `SCR` at most. -/
theorem PolledOn.setScr {t : State} (h : PolledOn d ds rs s t) (m : Message) : PolledOn d ds rs s (t.setScr m) where
  phase := h.phase
  turns := h.turns
  clk := h.clk
  rx := h.rx
  now := h.now
  t0 := h.t0
  timeout := h.timeout
  xcmd := h.xcmd
  xdst := h.xdst
  xerr := h.xerr
  err := h.err
  msg a := (State.setScr_msg t m a).trans (h.msg a)
  responses := h.responses

theorem Polling.passes_over (h : Polling d ds r rs s) (hr : PassesOver s r) :
    ∃ t, step s = .next t ∧ PolledOn d ds rs s t := by
  refine ⟨_, h.step_eq, ?_⟩
  cases r with
  | none => exact h.polledOn
  | some f =>
    rw [exchPolled_other f s.clockRead.polled (hr f rfl)]
    exact h.polledOn.setScr _

end

/-- What a completed exchange leaves: the matching message in its register, nothing else changed that the host reads
but the response, and the answers behind the match. -/
structure ExchangeEnd (f : Frame) (rest : List (Option Frame)) (s t : State) : Prop where
  phase : t.phase = .idle
  received : t.msg s.xdst = decodeFrame f
  other : ∀ b, b ≠ s.xdst → t.msg b = s.msg b
  err : t.err = s.err
  rx : t.env.rx = rest
  responses : t.env.responses = ⟨true, s.xerr, f.id.zeroExtend 32⟩ :: s.env.responses

theorem Polling.completes {d : BitVec 32} {ds : List (BitVec 32)} {f : Frame} {rest : List (Option Frame)} {s : State}
    (h : Polling d ds (some f) rest s) (hmatch : (decodeFrame f).cmd = s.xcmd ∧ (decodeFrame f).resp = true) :
    ∃ t, step s = .next t ∧ ExchangeEnd f rest s t := by
  have hon := h.polledOn.setScr (decodeFrame f)
  refine ⟨_, h.step_eq, ?_⟩
  rw [exchPolled_match f s.clockRead.polled hmatch]
  refine ⟨rfl, ?_, fun b hb => ?_, ?_, ?_, ?_⟩
  · rw [State.respond_msg]
    exact State.setMsg_msg_same _ _ _
  · rw [State.respond_msg, State.setMsg_msg_other _ s.clockRead.polled.xdst b _ hb, hon.msg b]
  · rw [State.respond_err, State.setMsg_err, hon.err]
  · rw [State.respond_env_rx, State.setMsg_env, hon.rx]
  · rw [State.respond_env_responses, State.setMsg_env, hon.responses]
    rfl

/-- Every clock read of the exchange, of which there is one for each jump, is within the budget. -/
def WithinBudget (s : State) (ds : List (BitVec 32)) : Prop :=
  ∀ j, j < ds.length → (s.env.now + (ds.take (j + 1)).sum - s.t0).toNat < s.timeout.toNat

theorem WithinBudget.head {s : State} {d : BitVec 32} {ds : List (BitVec 32)} (h : WithinBudget s (d :: ds)) :
    (s.env.now + d - s.t0).toNat < s.timeout.toNat := by
  simpa using h 0 (by simp)

theorem WithinBudget.tail {s t : State} {d : BitVec 32} {ds : List (BitVec 32)} {rs : List (Option Frame)}
    (h : WithinBudget s (d :: ds)) (hon : PolledOn d ds rs s t) : WithinBudget t ds := by
  intro j hj
  have hnext := h (j + 1) (by simpa using hj)
  rw [List.take_succ_cons, List.sum_cons, ← BitVec.add_assoc] at hnext
  rwa [hon.now, hon.t0, hon.timeout]

/-- The exchange passes over the answers `rs` and ends with the frame behind them. -/
theorem run_exchange (rs : List (Option Frame)) (f : Frame) (rest : List (Option Frame)) (s : State)
    (hp : s.phase = .exPoll) (hturns : s.env.turns = []) (hrx : s.env.rx = rs ++ some f :: rest)
    (hclk : s.env.clk.length = rs.length + 1) (hbudget : WithinBudget s s.env.clk)
    (hpass : ∀ r ∈ rs, PassesOver s r) (hmatch : (decodeFrame f).cmd = s.xcmd ∧ (decodeFrame f).resp = true) :
    ∃ t, Sys2Proof.core.run (rs.length + 1) s = .next t ∧ ExchangeEnd f rest s t := by
  induction rs generalizing s with
  | nil =>
    obtain ⟨d, ds, hds⟩ := List.exists_cons_of_length_eq_add_one hclk
    rw [hds] at hbudget
    have hpolling : Polling d ds (some f) rest s := ⟨hp, hturns, hds, hrx, hbudget.head⟩
    obtain ⟨t, hstep, hend⟩ := hpolling.completes hmatch
    exact ⟨t, run_one hstep, hend⟩
  | cons r rs ih =>
    obtain ⟨d, ds, hds⟩ := List.exists_cons_of_length_eq_add_one hclk
    rw [hds] at hbudget hclk
    have hpolling : Polling d ds r (rs ++ some f :: rest) s := ⟨hp, hturns, hds, hrx, hbudget.head⟩
    obtain ⟨u, hstep, hon⟩ := hpolling.passes_over (hpass r List.mem_cons_self)
    have hpass_u : ∀ q ∈ rs, PassesOver u q := fun q hq g hg => by
      rw [hon.xcmd]
      exact hpass q (List.mem_cons_of_mem r hq) g hg
    obtain ⟨t, hrun, hend⟩ := ih u hon.phase hon.turns hon.rx (by rw [hon.clk]; simpa using hclk)
      (by rw [hon.clk]; exact hbudget.tail hon) hpass_u (by rwa [hon.xcmd])
    refine ⟨t, (run_succ hstep).trans hrun, hend.phase, ?_, fun b hb => ?_, hend.err.trans hon.err, hend.rx, ?_⟩
    · rw [← hon.xdst]
      exact hend.received
    · rw [hend.other b (by rwa [hon.xdst]), hon.msg b]
    · rw [hend.responses, hon.xerr, hon.responses]

/-- Settles O28: the premises are those of `run_exchange`. -/
theorem exchangeEndsWithTheFirstMatch : Obligations.ExchangeEndsWithTheFirstMatch := by
  intro s rs f rest hp hturns hrx hclk hbudget hpass hcmd hresp
  have hbudget' : WithinBudget s s.env.clk := fun j hj => hbudget j (by omega)
  have hpass' : ∀ r ∈ rs, PassesOver s r := fun r hr g hg => hpass g (hg ▸ hr)
  obtain ⟨t, hrun, hend⟩ := run_exchange rs f rest s hp hturns hrx hclk hbudget' hpass' ⟨hcmd, hresp⟩
  exact ⟨t, hrun, hend.phase, hend.received, hend.other, hend.err, hend.rx, hend.responses⟩

end Sys2Proof.Machine
end
